-- ==== Sys2Proof/Config.lean ====
section
/-! DEFINITION. What the spec leaves open: free values that have no body, so that nothing can be proved of them, and the
fused or cryptographic values of the part. A free value is applied to `State.free`, which every step advances, and to the
thing it is about. -/

namespace Sys2Proof.Config

/-- Further clks that pass during a step (R3: times are not bound). DESIGN CHOICE: assumption 7. -/
opaque elapsed : Nat → Nat
/-- Between a table change and the TLBI that covers it, does an access use the cached translation (R325)?
DESIGN CHOICE: assumption 6. -/
opaque staleTranslation : Nat → Word → Bool
/-- Does a walk use a table entry that a walker pool caches, between a change of it and the TLBI that covers it (R324, R325)?
DESIGN CHOICE: assumption 6. -/
opaque staleTable : Nat → Nat → Bool
/-- Has a dirty line that a hand-over writes back met an uncorrectable soft error (R348)? DESIGN CHOICE: assumption 69. -/
opaque softError : Nat → Nat → Bool
/-- Has the record of a code-dirty mark that a hand-over carries been lost to a data error (R331)? DESIGN CHOICE: assumption 69. -/
opaque lostMark : Nat → Nat → Bool
/-- Do the reads of a copy command miss a store of the kicking task that no release orders before them (R166)? Applied to the free value
of the command and the number of the store. DESIGN CHOICE: assumption 5. -/
opaque oldWord : Nat → Nat → Bool
/-- What the destination of a data error holds (R240: no defined value). DEDUCED: assumption 22. -/
opaque dataErrorValue : Nat → Word
/-- Scale field of a block-tagged destination of a lane operation that gives no scale (R108 and R111 name none).
DEDUCED: assumption 8. -/
opaque scaleField : Nat → Nat → BitVec 8
/-- SPAN of VTOPK's result predicate where ceil(k / 8) does not fit the field's 1 to 6 (R134, R109).
DESIGN CHOICE: assumption 12. -/
opaque topkSpan : Nat → BitVec 3
/-- A cumulative target or phase count of a barrier record past 64 bits (R309 states no result).
DESIGN CHOICE: assumption 13. -/
opaque barrierWord : Nat → Word
/-- What PROBE reports of a scratch address as SZ, MODE and PA (R338: there is no leaf). DEDUCED: assumption 54. -/
opaque probeScratch : Nat → BitVec 44
/-- What PROBE reports of an ASID whose table root the device has been given by no task (R338). DEDUCED: assumption 54. -/
opaque probeUnknown : Nat → Word
/-- The cause that a failed boot step reports (R378 names no codes). DESIGN CHOICE: assumption 24. -/
opaque bootCause : Nat → BitVec 8
/-- Which bound core a stage that stays idle returns to the pool (R285 names none). DESIGN CHOICE: assumption 20. -/
opaque returnedCore : Nat → Nat
/-- Which of several free slots, entries or indices is taken where the spec names none: task slots (R236, R248), kernel slots
(R281), mailbox bindings (R265), job queue entries (R225). DESIGN CHOICE: assumption 19. -/
opaque freeChoice : Nat → Nat
/-- Block type of an OB4 destination of a copy command (R271 names no field for it). DEDUCED: assumption 16. -/
opaque copyBlockType : Nat → BitVec 2

/-- SHA-384 (R376, R378, R379, R384). DESIGN CHOICE: assumption 23. -/
opaque sha384 : List Byte → BitVec 384
/-- ECDSA P-384 verification of a signature over a SHA-384 digest against a public key. DESIGN CHOICE: assumption 23. -/
opaque ecdsaVerify : BitVec 384 → BitVec 768 → BitVec 784 → Bool
/-- ECDSA P-384 signature with the device identity key (R384). DESIGN CHOICE: assumption 23. -/
opaque identitySign : BitVec 384 → BitVec 768
/-- The device identity public key that can be read (R378). DESIGN CHOICE: assumption 23. -/
opaque identityKey : BitVec 768
/-- The monitor key whose SHA-384 is fused (R378), the debug authority key (R376) and the tenant keys (R379).
DESIGN CHOICE: assumption 23. -/
opaque monitorKey : BitVec 784
/-- DESIGN CHOICE: assumption 23. -/
opaque debugKey : BitVec 784
/-- DESIGN CHOICE: assumption 23. -/
opaque tenantKey : BitVec 12 → BitVec 784
/-- Does the farrier SRAM test of boot step 1 pass (R378)? DESIGN CHOICE: assumption 23. -/
opaque sramGood : Nat → Bool

end Sys2Proof.Config
end

