-- ==== Sys2Proof/Syntax.lean ====
section
/-! DEFINITION. The syntax of the machine: the types of an instruction's fields (R6, R32, R34, R47 to R49), the
parameters of the device's events, and `Instr`, one constructor for every row of the table of operations and events. -/

namespace Sys2Proof

/-- Length of an instruction (R47): 32, 64 or 96 bits. -/
inductive Len where | w1 | w2 | w3
deriving DecidableEq, Repr

/-- Ordering qualifier (R49): none, acquire, release, both. -/
inductive Order where | none | acq | rel | ar
deriving DecidableEq, Repr

/-- Scope (R6). -/
inductive Scope where | c | k | d | p | x
deriving DecidableEq, Repr

/-- Rounding mode (R34): nearest-even, toward zero, toward −∞, toward +∞, stochastic. -/
inductive Rm where | rne | rz | rd | ru | rs
deriving DecidableEq, Repr

/-- Format tag (R32). -/
inductive Fmt where
  | raw | i4 | n4 | i8 | n8 | i16 | n16 | i32 | n32 | i64 | n64
  | fp32 | fp16 | bf16 | e4m3 | e5m2 | e2m1 | mxfp4 | ob4
deriving DecidableEq, Repr

/-- Condition of CMP (R86). -/
inductive CmpCond where | eq | ne | lt | ge | gt | le
deriving DecidableEq, Repr

/-- Condition of VCMP (R126). -/
inductive VCmpCond where | eq | ne | lt | ge | gt | le | un
deriving DecidableEq, Repr

/-- Operation of AMO (R101). -/
inductive AmoOp where | swap | add | and | or | xor | min | max
deriving DecidableEq, Repr

/-- Operation of VRED (R131). -/
inductive VRedOp where | add | min | max | and | or | xor
deriving DecidableEq, Repr

/-- Function of VSF (R133). -/
inductive SfFn where | rcp | sqrt | rsqrt | exp2 | log2 | tanh | sigm
deriving DecidableEq, Repr

/-- The extension word's fields (R49). `pd pa pb pc` are the four bits of pq: the position names a port. -/
structure Ext where
  mod : BitVec 5 := 0
  ord : Order := .none
  ri  : Bool := false
  c   : BitVec 5 := 0
  tag : Fmt := .raw
  rm  : Rm := .rne
  sc  : Scope := .c
  la  : BitVec 4 := 0
  pc  : Bool := false
  pb  : Bool := false
  pa  : Bool := false
  pd  : Bool := false
deriving DecidableEq, Repr

/-- The operand fields of one instruction (R48, R49, R51): the register fields `d`, `a`, `b`, the 3-bit field `m` (`w` in
form M), the bits of the immediate field `imm`, the extension word `x` and the literal `lit`. A field that the form of the
first word does not have is 0; `x` is all zero in the 32-bit form (R50), `lit` is 0 but in the 96-bit form. -/
structure Ops where
  len : Len := .w1
  d   : BitVec 5 := 0
  a   : BitVec 5 := 0
  b   : BitVec 5 := 0
  m   : BitVec 3 := 0
  imm : BitVec 18 := 0
  x   : Ext := {}
  lit : BitVec 32 := 0
deriving DecidableEq, Repr

/-- A trap to deliver (R238): its kind, the DETAIL byte, the IMP bit and the three information words. -/
structure Trap where
  kind   : BitVec 6
  detail : BitVec 8 := 0
  imp    : Bool := false
  info0  : Word := 0
  info1  : Word := 0
  info2  : Word := 0
deriving DecidableEq, Repr

/-- One word on its way to a port (R261, R370): tenant, the sender's rank (0xF_FFFF for none), destination rank and port,
time stamp and the word. -/
structure PortWord where
  tenant : BitVec 12
  src    : BitVec 20
  rank   : BitVec 20
  port   : BitVec 2
  stamp  : BitVec 32
  value  : Word
  sender : BitVec 48 := 0
deriving DecidableEq, Repr

/-- What a data error has struck (R240): the erring destination of a load, an atomic or a tile access. -/
inductive DataDest where
  | none
  | reg (n : BitVec 5)
  | group (base : BitVec 5) (n : Nat)
  | tile (j : BitVec 3)
deriving DecidableEq, Repr

/-- Where an access from outside goes: memory through CXL (R364), a virtual function's doorbell page (R365), BAR0 of the physical
function (R359, R378), or through the sideband a link's image (R359), a debug register seen from a core (R368), the context area of
a task or memory (R377). -/
inductive HostTarget where
  | memory (pa : Nat)
  | doorbell (tenant : BitVec 12) (vf : BitVec 6) (off : Nat)
  | function (off : Nat)
  | link (n : Nat)
  | register (tenant : BitVec 12) (core : Nat) (n : BitVec 12)
  | area (tid : BitVec 48) (off : Nat)
  | sideband (pa : Nat)
deriving DecidableEq, Repr

/-- A peer package and the Ouvmer Link port that a word to it or from it passes (R362, R363). -/
structure PeerLink where
  pkg  : BitVec 12
  port : BitVec 4
deriving DecidableEq, Repr

/-- What a counter home is asked to perform (R302). -/
inductive CounterOp where | add (v : Word) | read | wait (target : Word)
deriving DecidableEq, Repr

/-- What the farrier monitor's configuration and the flash hold for one paddock (R378 to R381): the paddock block's
contents, the image with its manifest and the supervisor's start. -/
structure PaddockConfig where
  tenant    : BitVec 12
  dies      : List (BitVec 2)
  rects     : List (BitVec 2 × BitVec 32)
  dramStacks    : BitVec 16
  reach     : BitVec 64
  tvec      : Word
  forbid    : Bool
  ctxBase   : Word
  ctxCount  : Nat
  dumpBase  : Word
  dumpBytes : Nat
  trace     : Word
  pool      : List Nat
  vfs       : BitVec 64
  aspaces   : List (BitVec 6 × Word)
  pblk      : Word
  blockPa   : Nat
  blockTables : List Nat := []
  manifest  : BitVec 1280
  signature : BitVec 768
  image     : List (Nat × Byte)
  entry     : Word
  aspace    : Word
deriving DecidableEq, Repr

/-- What a package reset finds outside the device (R378): the monitor image with its signature, the FEAT bits the part
offers (R383) and the configuration of the paddocks. -/
structure BootInput where
  monitor   : List Byte
  signature : BitVec 768
  offer     : BitVec 128
  paddocks  : List PaddockConfig
  /-- The farrier monitor's route table (R362): a mask of Ouvmer Link ports for each peer package. -/
  routes    : List (BitVec 12 × BitVec 12)
  /-- The tenants that the farrier monitor admits on each Ouvmer Link port (R367). -/
  admitted  : List (BitVec 4 × BitVec 12) := []
deriving DecidableEq, Repr

/-- The steps of the part: every row of the table of operations and events, in its order. The first 172 are the
instructions, each with its operand fields; the rest are the device's own events and the acts of agents outside. -/
inductive Instr where
  /-- NOP (R59): Advances the PC by its length and changes no other state. -/
  | nop (o : Ops)
  /-- ADD (R80): Adds two integer operands of the tag type; wraps, or clamps under .sat. -/
  | add (o : Ops)
  /-- SUB (R80): Subtracts b from a in the tag type; wraps, or clamps under .sat. -/
  | sub (o : Ops)
  /-- MUL (R81): Forms the exact product, then wraps it or clamps it under .sat. -/
  | mul (o : Ops)
  /-- MULH (R81): Writes the high W bits of the exact 2W-bit product. -/
  | mulh (o : Ops)
  /-- DIV (R82): Divides with truncation toward zero; a zero divisor gives all ones. -/
  | div (o : Ops)
  /-- REM (R82): Gives the remainder with the sign of x; a zero divisor gives x. -/
  | rem (o : Ops)
  /-- AND (R84): Bitwise AND of a and b. -/
  | and (o : Ops)
  /-- OR (R84): Bitwise OR of a and b. -/
  | or (o : Ops)
  /-- XOR (R84): Bitwise XOR of a and b. -/
  | xor (o : Ops)
  /-- ANDN (R84): a AND NOT b. -/
  | andn (o : Ops)
  /-- ORN (R84): a OR NOT b. -/
  | orn (o : Ops)
  /-- XNOR (R84): Bitwise XNOR of a and b. -/
  | xnor (o : Ops)
  /-- SHL (R85): Shifts left by the unmasked register amount. -/
  | shl (o : Ops)
  /-- SHR (R85): Logical shift right by the register amount. -/
  | shr (o : Ops)
  /-- SAR (R85): Arithmetic shift right by the register amount. -/
  | sar (o : Ops)
  /-- ROL (R85): Rotates left by the amount modulo W. -/
  | rol (o : Ops)
  /-- ROR (R85): Rotates right by the amount modulo W. -/
  | ror (o : Ops)
  /-- MIN (R83): Writes the lesser operand, compared in the type. -/
  | min (o : Ops)
  /-- MAX (R83): Writes the greater operand, compared in the type. -/
  | max (o : Ops)
  /-- CMP (R86): Writes 1 when the fn condition holds between the operands, else 0. -/
  | cmp (k : CmpCond) (o : Ops)
  /-- SEL (R87): Writes b if a is nonzero, else c (64-bit only). -/
  | sel (o : Ops)
  /-- ADDI (R80): Adds a sign-extended immediate to a. -/
  | addi (o : Ops)
  /-- ANDI (R84): AND with a zero-extended 8-bit immediate. -/
  | andi (o : Ops)
  /-- ORI (R84): OR with a zero-extended 8-bit immediate. -/
  | ori (o : Ops)
  /-- XORI (R84): XOR with a zero-extended 8-bit immediate. -/
  | xori (o : Ops)
  /-- SHLI (R85): Shift left by an immediate amount. -/
  | shli (o : Ops)
  /-- SHRI (R85): Logical shift right by an immediate amount. -/
  | shri (o : Ops)
  /-- SARI (R85): Arithmetic shift right by an immediate amount. -/
  | sari (o : Ops)
  /-- ROLI (R85): Rotate left by an immediate amount. -/
  | roli (o : Ops)
  /-- RORI (R85): Rotate right by an immediate amount. -/
  | rori (o : Ops)
  /-- LI (R88): Writes the sign-extended immediate or literal to d. -/
  | li (o : Ops)
  /-- LIH (R88): Writes the literal to bits 63:32 and a's low half to bits 31:0 (96-bit only). -/
  | lih (o : Ops)
  /-- BEQ (R89): Branches when a equals b. -/
  | beq (o : Ops)
  /-- BNE (R89): Branches when a differs from b. -/
  | bne (o : Ops)
  /-- BLT (R89): Branches when a is signed less than b. -/
  | blt (o : Ops)
  /-- BGE (R89): Branches when a is signed greater or equal to b. -/
  | bge (o : Ops)
  /-- BLO (R89): Branches when a is unsigned lower than b. -/
  | blo (o : Ops)
  /-- BHS (R89): Branches when a is unsigned higher or same as b. -/
  | bhs (o : Ops)
  /-- JAL (R90): Writes the return address and jumps PC-relative. -/
  | jal (o : Ops)
  /-- JALR (R90): Writes the return address and jumps to a plus offset; misaligned target faults. -/
  | jalr (o : Ops)
  /-- ADDPC (R90): Writes PC plus a byte offset to d. -/
  | addpc (o : Ops)
  /-- LD (R93): Loads n bytes, checked by R92, and extends them into d. -/
  | ld (o : Ops)
  /-- ST (R94): Stores the low n bytes of the d register or port to memory. -/
  | st (o : Ops)
  /-- AMO (R101): Atomic read-modify-write selected by fn, returning the old value. -/
  | amo (k : AmoOp) (o : Ops)
  /-- CAS (R102): Compares memory with b and stores c on equality, returning the old value (64-bit only). -/
  | cas (o : Ops)
  /-- FAMO (R104): Atomic floating add in FP32 or BF16, returning the old bits. -/
  | famo (o : Ops)
  /-- FENCE (R105): Orders earlier and later accesses of the task at its scope. -/
  | fence (o : Ops)
  /-- PUBC (R337): Waits for the task's code stores to mark, then clears every mark naming the task. -/
  | pubc (o : Ops)
  /-- VLD (R117): Loads the active elements of a register group and sets its tag. -/
  | vld (o : Ops)
  /-- VST (R117): Stores the active elements of a register group. -/
  | vst (o : Ops)
  /-- VADD (R121): Lane-wise add of active elements. -/
  | vadd (o : Ops)
  /-- VSUB (R121): Lane-wise subtract. -/
  | vsub (o : Ops)
  /-- VMUL (R121): Lane-wise multiply. -/
  | vmul (o : Ops)
  /-- VMULH (R122): Lane-wise high half of the exact integer product. -/
  | vmulh (o : Ops)
  /-- VDIV (R123): Lane-wise IEEE division. -/
  | vdiv (o : Ops)
  /-- VMIN (R121): Lane-wise minimum. -/
  | vmin (o : Ops)
  /-- VMAX (R121): Lane-wise maximum. -/
  | vmax (o : Ops)
  /-- VABS (R121): Lane-wise absolute value. -/
  | vabs (o : Ops)
  /-- VNEG (R121): Lane-wise negation. -/
  | vneg (o : Ops)
  /-- VAND (R121): Lane-wise AND. -/
  | vand (o : Ops)
  /-- VOR (R121): Lane-wise OR. -/
  | vor (o : Ops)
  /-- VXOR (R121): Lane-wise XOR. -/
  | vxor (o : Ops)
  /-- VANDN (R121): Lane-wise a AND NOT b. -/
  | vandn (o : Ops)
  /-- VFMA (R124): Lane-wise a times b plus c, rounded once (64-bit only). -/
  | vfma (o : Ops)
  /-- VFMS (R124): Lane-wise a times b minus c (64-bit only). -/
  | vfms (o : Ops)
  /-- VFNMA (R124): Lane-wise minus a times b plus c (64-bit only). -/
  | vfnma (o : Ops)
  /-- VFNMS (R124): Lane-wise minus a times b minus c (64-bit only). -/
  | vfnms (o : Ops)
  /-- VSHL (R125): Lane-wise shift left by per-element amounts. -/
  | vshl (o : Ops)
  /-- VSHR (R125): Lane-wise logical shift right. -/
  | vshr (o : Ops)
  /-- VSAR (R125): Lane-wise arithmetic shift right. -/
  | vsar (o : Ops)
  /-- VROL (R125): Lane-wise rotate left. -/
  | vrol (o : Ops)
  /-- VROR (R125): Lane-wise rotate right. -/
  | vror (o : Ops)
  /-- VCMP (R126): Lane-wise compare writing all ones or zero per element. -/
  | vcmp (k : VCmpCond) (o : Ops)
  /-- VSEL (R127): Selects a or b per element by the mask c. -/
  | vsel (o : Ops)
  /-- VCVT (R129): Converts elements or builds blocks into the destination format (64-bit only). -/
  | vcvt (o : Ops)
  /-- VDOT (R130): Accumulates per-lane dot products into d. -/
  | vdot (o : Ops)
  /-- VRED (R131): Reduces the active elements into element 0 of d. -/
  | vred (k : VRedOp) (o : Ops)
  /-- VPERM_TBL (R132): Table lookup permute by index vector. -/
  | vpermTbl (o : Ops)
  /-- VPERM_BCAST (R132): Broadcasts element g b of a to every active element. -/
  | vpermBcast (o : Ops)
  /-- VPERM_REV (R132): Reverses the elements of the group. -/
  | vpermRev (o : Ops)
  /-- VSF (R133): Computes a special function per element, rounded once. -/
  | vsf (k : SfFn) (o : Ops)
  /-- VTOPK (R134): Selects the k greatest candidates with their indices and writes a result predicate. -/
  | vtopk (o : Ops)
  /-- PSET (R116): Sets a predicate's span, width and count from a. -/
  | pset (o : Ops)
  /-- PCNT (R116): Writes a predicate's COUNT to a g register. -/
  | pcnt (o : Ops)
  /-- PRD (R116): Writes a predicate image to a g register. -/
  | prd (o : Ops)
  /-- PWR (R116): Writes a predicate from a checked image. -/
  | pwr (o : Ops)
  /-- PBRK (R116): Counts leading active nonzero elements into a predicate. -/
  | pbrk (o : Ops)
  /-- VMOV_COPY (R135): Copies bits, tag and scale field, or retags with .ri. -/
  | vmovCopy (o : Ops)
  /-- VMOV_BCAST (R135): Broadcasts a g value or literal to every active element. -/
  | vmovBcast (o : Ops)
  /-- VMOV_GET (R135): Extracts one element into a g register. -/
  | vmovGet (o : Ops)
  /-- VMOV_SET (R135): Inserts a g value into one element. -/
  | vmovSet (o : Ops)
  /-- VLDB (R120): Loads whole blocks with their scale bytes. -/
  | vldb (o : Ops)
  /-- VSTB (R120): Stores whole blocks with their scale bytes. -/
  | vstb (o : Ops)
  /-- SDEF (R195): Binds a stream context and reads and checks a descriptor. -/
  | sdef (o : Ops)
  /-- SGO (R196): Starts, resumes or retries a stream and arms the guard. -/
  | sgo (o : Ops)
  /-- SNEXT (R197): Delivers the next load element to a g register or port. -/
  | snext (o : Ops)
  /-- SNEXT_VECTOR (R197): Delivers the next active elements to a vector group. -/
  | snextVector (o : Ops)
  /-- SPUT (R198): Stores one element through a store stream. -/
  | sput (o : Ops)
  /-- SPUT_VECTOR (R198): Stores the active elements of a vector group through a store stream. -/
  | sputVector (o : Ops)
  /-- SSINK (R199): Waits for a reducing stream to end and reads its result. -/
  | ssink (o : Ops)
  /-- SRECALL (R200): Brings the saddlebag home and stops the stream. -/
  | srecall (o : Ops)
  /-- SWAIT_HOME (R201): Waits until the saddlebag is at the core or discarded. -/
  | swaitHome (o : Ops)
  /-- SWAIT_END (R201): Waits until the stream has ended. -/
  | swaitEnd (o : Ops)
  /-- SSTAT (R202): Reads a stream's status image. -/
  | sstat (o : Ops)
  /-- SSTAT_CLR (R202): Reads a stream's status image and clears the EV bits read. -/
  | sstatClr (o : Ops)
  /-- SHOLD (R203): Pins a stream at the core by setting HP. -/
  | shold (o : Ops)
  /-- SHOLD_OFF (R203): Clears HP and PIN so the stream may float. -/
  | sholdOff (o : Ops)
  /-- SFREE (R204): Frees a stream in any state and discards its state. -/
  | sfree (o : Ops)
  /-- TLD (R215): Checks, halters and loads h rows into a tile at one instant. -/
  | tld (o : Ops)
  /-- TST (R216): Checks, halters and stores h rows of a tile as one coherence position. -/
  | tst (o : Ops)
  /-- TZERO (R217): Zeros a tile and sets its tag. -/
  | tzero (o : Ops)
  /-- TFILL (R217): Fills every element of a tile with a value. -/
  | tfill (o : Ops)
  /-- TCVT (R218): Converts one tile into another, part by part. -/
  | tcvt (o : Ops)
  /-- TMOV (R219): Copies a whole tile. -/
  | tmov (o : Ops)
  /-- MMA (R224): Checks operands and enqueues a 32x32 matrix job from tiles. -/
  | mma (o : Ops)
  /-- MMA_WBUF (R224): Enqueues a matrix job whose B is a weight-buffer panel. -/
  | mmaWbuf (o : Ops)
  /-- MJOB (R228): Queues a job record on a local or remote engine and returns a handle. -/
  | mjob (o : Ops)
  /-- JPOLL (R230): Reads the status of a job by handle. -/
  | jpoll (o : Ops)
  /-- JWAIT (R230): Waits until a job is done, faulted or refused and reads its status. -/
  | jwait (o : Ops)
  /-- WLD (R222): Copies a panel into the weight buffer and computes its special masks. -/
  | wld (o : Ops)
  /-- SPAWN (R248): Creates a task from a spawn record on a target core. -/
  | spawn (o : Ops)
  /-- EXIT (R249): Ends the task and releases its streams, bindings and memberships. -/
  | exit (o : Ops)
  /-- EXIT_DUMP (R249): Ends the task by making its context dumped with kind 16. -/
  | exitDump (o : Ops)
  /-- YIELD (R250): Skips issue until peers issue, or waits a count of clks. -/
  | yield (o : Ops)
  /-- YIELD_SWAP (R250): Saves the task to the ready queue tail when the queue is non-empty. -/
  | yieldSwap (o : Ops)
  /-- TID (R251): Writes the task's TID. -/
  | tid (o : Ops)
  /-- TID_LOC (R251): Writes the core package number times 4 plus the slot. -/
  | tidLoc (o : Ops)
  /-- TRAP (R252): Raises trap kind 12 with its code. -/
  | trap (o : Ops)
  /-- ERET (R253): Restores PC from EPC and STAT from ESTAT. -/
  | eret (o : Ops)
  /-- CSRR (R254): Reads a status register into d. -/
  | csrr (o : Ops)
  /-- CSRW (R254): Writes a status register from a. -/
  | csrw (o : Ops)
  /-- WFE (R255): Arms a monitor on a word's line and waits for it to change. -/
  | wfe (o : Ops)
  /-- BKPT (R252): Raises trap kind 13, or a debug stop when a debugger holds the feature. -/
  | bkpt (o : Ops)
  /-- MIGR (R256): Halts, saves and restores a task on a named core. -/
  | migr (o : Ops)
  /-- SENDM (R267): Reads 64 bytes and stores them to a mailbox as a triggering store. -/
  | sendm (o : Ops)
  /-- MBIND (R265): Binds a mailbox to a handler spawn record. -/
  | mbind (o : Ops)
  /-- MFREE (R265): Removes a mailbox binding. -/
  | mfree (o : Ops)
  /-- RAWAIT_PROD (R269): Waits until a ring has n free slots and returns WP. -/
  | rawaitProd (o : Ops)
  /-- RAWAIT_CONS (R269): Waits until a ring holds n slots and returns RP. -/
  | rawaitCons (o : Ops)
  /-- RREL_PROD (R269): Advances WP by n in one atomic access. -/
  | rrelProd (o : Ops)
  /-- RREL_CONS (R269): Advances RP by n and adds n to FREEC. -/
  | rrelCons (o : Ops)
  /-- CPY (R272): Checks a copy descriptor and queues it on the copy unit. -/
  | cpy (o : Ops)
  /-- CPYM (R275): Queues a multicast copy to up to eight ring receivers. -/
  | cpym (o : Ops)
  /-- LAUNCH (R292): Loads if needed and posts a launch record's arguments to the entry stage. -/
  | launch (o : Ops)
  /-- LAUNCH_DRAIN (R293): Makes a kernel draining. -/
  | launchDrain (o : Ops)
  /-- LAUNCH_STAT (R293): Reads a kernel's status image. -/
  | launchStat (o : Ops)
  /-- LAUNCH_ABORT (R293): Discards queued entries, completes stalled posts and faults the kernel. -/
  | launchAbort (o : Ops)
  /-- EMIT (R294): Appends a 64-byte entry to a stage queue of the task's kernel. -/
  | emit (o : Ops)
  /-- JOIN (R301): Adds the task to a group at its home. -/
  | join (o : Ops)
  /-- LEAVE (R301): Removes the task from a group and makes the settle add. -/
  | leave (o : Ops)
  /-- GINFO_HDR (R301): Takes a census of a group's header. -/
  | ginfoHdr (o : Ops)
  /-- GINFO_MEM (R301): Reads member b's rank word. -/
  | ginfoMem (o : Ops)
  /-- GINFO_TID (R301): Reads member b's TID. -/
  | ginfoTid (o : Ops)
  /-- CADD (R313): Adds to a counter at its home and returns the old value. -/
  | cadd (o : Ops)
  /-- CADD_SET (R313): Supervisor store of a value to a counter. -/
  | caddSet (o : Ops)
  /-- CWAIT (R314): Waits until a counter reaches a target. -/
  | cwait (o : Ops)
  /-- CRD (R314): Reads a counter at its home. -/
  | crd (o : Ops)
  /-- BEXPECT (R315): Posts expected bytes for a barrier phase. -/
  | bexpect (o : Ops)
  /-- BEXPECT_INIT (R316): Initialises a barrier record with a party count. -/
  | bexpectInit (o : Ops)
  /-- BEXPECT_GRP (R316): Initialises a barrier record counted by a group census. -/
  | bexpectGrp (o : Ops)
  /-- BARRIVE (R317): Adds one arrival to a barrier and returns the phase. -/
  | barrive (o : Ops)
  /-- BWAIT (R317): Waits until a barrier's PH exceeds a phase. -/
  | bwait (o : Ops)
  /-- TLBI_VA (R337): Drops translations of one virtual address in an ASID. -/
  | tlbiVa (o : Ops)
  /-- TLBI_AS (R337): Drops every translation of an ASID. -/
  | tlbiAs (o : Ops)
  /-- TLBI_FRM (R337): Drops every translation of a frame and clears its code bit (package scope only). -/
  | tlbiFrm (o : Ops)
  /-- TLBI_ALL (R337): Drops every cached translation in reach. -/
  | tlbiAll (o : Ops)
  /-- PROBE_R (R338): Translates an address for a read and reports the result. -/
  | probeR (o : Ops)
  /-- PROBE_W (R338): Translates an address for a write and reports the result. -/
  | probeW (o : Ops)
  /-- PROBE_X (R338): Translates an address for a fetch and reports the result. -/
  | probeX (o : Ops)
  /-- STK_GIVE (R350): Starts a reins hand-over of a stack at its controller. -/
  | stkGive (o : Ops)
  /-- STK_STAT (R351): Reads a stack's status snapshot. -/
  | stkStat (o : Ops)
  /-- ILLEGAL_INSTRUCTION (R60): An undefined encoding raises the precise illegal-instruction trap with its cause. -/
  | illegalInstruction (cause : BitVec 8) (word : BitVec 32)
  /-- INSTRUCTION_FETCH (R171): Fetches one whole 32-byte block for the task. -/
  | instructionFetch
  /-- ISSUE (R287): Each clk the core picks the next ready slot and issues one or two instructions. -/
  | issue (core : Nat)
  /-- LONG_LATENCY_RESULT (R288): The result of a long-latency instruction returns and releases dependants. -/
  | longLatencyResult (tid : BitVec 48)
  /-- TRAP_ENTRY (R239): Saves STAT, EPC and cause and enters the trap vector once earlier results are written. -/
  | trapEntry (t : Trap)
  /-- DATA_ERROR (R240): An uncorrectable error in returned data raises the imprecise fatal trap. -/
  | dataError (tid : BitVec 48) (dest : DataDest) (pc pa : Word)
  /-- DUMP_WRITE (R246): The dump writer writes the next dumped context into a free dump slot and posts a type 6 record. -/
  | dumpWrite (tenant : BitVec 12)
  /-- PREEMPT_REQUEST (R242): A pre-emption request halts the task at a boundary within 1,700 clks. -/
  | preemptRequest (tid : BitVec 48)
  /-- CONTEXT_SAVE (R243): After the halt, waits for results, saddlebags, held jobs and accesses, then writes the context area. -/
  | contextSave (tid : BitVec 48)
  /-- CONTEXT_RESTORE (R245): Restores a saved context into a slot, with tiles into the TWIN-named physical tiles. -/
  | contextRestore (tid : BitVec 48) (core : Nat)
  /-- READY_QUEUE_TAKE (R236): A freed slot takes and restores the head of the core's ready queue. -/
  | readyQueueTake (core : Nat)
  /-- MIGRATION_FORWARD (R244): After restore, the old interface forwards held messages and redirects senders. -/
  | migrationForward (tid : BitVec 48)
  /-- YIELD_COUNT_EXPIRY (R250): The count of a YIELD with a nonzero amount expires and the task runs. -/
  | yieldCountExpiry (tid : BitVec 48)
  /-- WFE_WAKE (R255): A write to the monitored line performs and ends the WFE with 1. -/
  | wfeWake (tid : BitVec 48)
  /-- WFE_TIMEOUT (R255): A WFE returns 2 after 65,536 clks. -/
  | wfeTimeout (tid : BitVec 48)
  /-- LSPLIT_WRITE (R137): A supervisor write of LSPLIT writes back, clears stash entries, zeros segments and applies the split. -/
  | lsplitWrite (v : Word)
  /-- VPOOL_WRITE (R143): A supervisor write of VPOOL drops the pool and lends new segments. -/
  | vpoolWrite (v : Word)
  /-- STASH_ENTRY_WRITE (R141): A supervisor write of a stash entry writes back its lines and installs the new mapping. -/
  | stashEntryWrite (n : BitVec 3) (v : Word)
  /-- FSR_ACCESS (R40): A CSRR or CSRW of FSR waits for earlier flag-raising instructions. -/
  | fsrAccess (write : Option Word)
  /-- JSR_ACCESS (R224): A CSRR or CSRW of JSR waits for earlier MMAs to complete. -/
  | jsrAccess (write : Option Word)
  /-- ASPACE_WRITE (R319): A supervisor write of ASPACE waits for earlier translations and switches the address space. -/
  | aspaceWrite (v : Word)
  /-- PB_WRITE (R259): A write of PBn waits until earlier sends through the port are accepted. -/
  | pbWrite (n : BitVec 2) (v : Word)
  /-- RANK_WRITE (R259): A supervisor write of RANK, refused while receive queues hold words. -/
  | rankWrite (v : Word)
  /-- RTNEW (R260): Installs or removes a rank-table entry. -/
  | rtnew (v : Word)
  /-- CAPNEW (R229): Places a capability in the lowest free entry of the table. -/
  | capnew (v : Word)
  /-- MKCLR (R330): Clears every code-dirty mark naming a TID in the paddock. -/
  | mkclr (v : Word)
  /-- PFRES (R335): A supervisor resume releases a demand-paging record and restarts its park set. -/
  | pfres (v : Word)
  /-- DRES (R369): Restores a stopped task as MIGR does. -/
  | dres (v : Word)
  /-- PRSEL_WRITE (R371): Selects a profile word, or clears the table with bit 63. -/
  | prselWrite (v : Word)
  /-- MONCFG_WRITE (R372): Configures a monitor and clears it. -/
  | moncfgWrite (n : BitVec 2) (v : Word)
  /-- REGISTER_WRITE (R254): A write to any other status register, by R4 and R5. -/
  | registerWrite (n : BitVec 12) (v : Word)
  /-- PORT_WORD_SEND (R261): A port operand write sends a word, checked for binding and rank entry. -/
  | portWordSend (n : BitVec 2) (v : Word)
  /-- PORT_WORD_ARRIVAL (R261): A word arrives at the destination interface and goes to the slot queue, the inbound buffer or is discarded. -/
  | portWordArrival (core : Nat) (w : PortWord)
  /-- SLOT_QUEUE_REFILL (R262): The interface refills a slot receive queue from its inbound buffer in arrival order. -/
  | slotQueueRefill (core : Nat)
  /-- MAILBOX_ACTIVATION (R266): A triggering store to a bound mailbox captures the line and activates its handler. -/
  | mailboxActivation (pa : Nat)
  /-- RING_MONITOR_WAKE (R269): A write to a ring header wakes a waiting RAWAIT to re-read. -/
  | ringMonitorWake (tid : BitVec 48)
  /-- FAULT_RECORD_POST (R270): The device writes a buffered record to the fault queue ring when it has room. -/
  | faultRecordPost (tenant : BitVec 12) (vf : BitVec 6)
  /-- COPY_COMMAND (R273): The copy unit performs a queued command's window of element accesses. -/
  | copyCommand (cluster : Nat) (k : Nat)
  /-- COPY_COMPLETION (R274): The unit makes the completion add and mailbox store with status. -/
  | copyCompletion (cluster : Nat) (k : Nat)
  /-- CPYM_RECEIVER (R275): For one receiver, waits for a free slot, writes it and advances WP. -/
  | cpymReceiver (cluster : Nat) (k : Nat) (r : BitVec 3)
  /-- COPY_PAGE_RESUME (R274): A parked copy command resumes at its faulting element when its page is filled. -/
  | copyPageResume (cluster : Nat) (k : Nat)
  /-- JOB_ACCEPT (R227): An engine accepts a job into its queue or refuses it with a code. -/
  | jobAccept (cluster : Nat) (rec : BitVec 512) (tid : BitVec 48)
  /-- REMOTE_JOB_ARRIVAL (R229): A remote job is checked against paddock and capability table. -/
  | remoteJobArrival (cluster : Nat) (rec : BitVec 512) (tid : BitVec 48) (tenant : BitVec 12)
  /-- JOB_QUERY (R230): A remote engine answers a JPOLL or JWAIT status query. -/
  | jobQuery (tid : BitVec 48) (handle : Word)
  /-- KSTEP_COMPLETE (R226): A k-step ends; the engine chooses the next work and may overtake. -/
  | kstepComplete (cluster : Nat)
  /-- JOB_KSTEP (R227): The engine checks and performs one k-step of a job. -/
  | jobKstep (cluster : Nat)
  /-- JOB_COMPLETION (R227): After its last k-step a job makes its release add to CMPL. -/
  | jobCompletion (cluster : Nat) (entry : BitVec 5)
  /-- JOB_PRIORITY_AGEING (R226): Every 4,096 clks of waiting a job's EPRI rises by one. -/
  | jobPriorityAgeing (cluster : Nat) (entry : BitVec 5)
  /-- JOB_HOLD (R231): A job on a halted task's tiles finishes its k-step and becomes held. -/
  | jobHold (cluster : Nat) (entry : BitVec 5)
  /-- JOB_CANCEL (R231): A held job whose context is restored elsewhere or discarded is cancelled with code 9. -/
  | jobCancel (cluster : Nat) (entry : BitVec 5)
  /-- TILE_ACCESS_COMMIT (R214): A tile access holding every halter commits its reads or writes. -/
  | tileAccessCommit (tid : BitVec 48)
  /-- HALTER_ACQUIRE (R213): A tile access takes a halter on the next line in address order. -/
  | halterAcquire (tid : BitVec 48)
  /-- TILE_ACCESS_ROLLBACK (R214): An uncommitted tile access releases its halters on a halt or a hand-over refusal. -/
  | tileAccessRollback (tid : BitVec 48)
  /-- STREAM_FLOAT (R186): The stream unit sends a running stream's saddlebag to its first station. -/
  | streamFloat (tid : BitVec 48) (s : BitVec 2)
  /-- SADDLEBAG_LEAVE (R188): The saddlebag leaves a station; a note reports the fold count. -/
  | saddlebagLeave (tid : BitVec 48) (s : BitVec 2)
  /-- SADDLEBAG_ARRIVE (R188): The saddlebag reaches a new station; the hop event is raised. -/
  | saddlebagArrive (tid : BitVec 48) (s : BitVec 2)
  /-- STATION_ELEMENT_FETCH (R187): A station fetches an element as a plain load of the task and delivers or folds it. -/
  | stationElementFetch (tid : BitVec 48) (s : BitVec 2)
  /-- CORE_ELEMENT_FETCH (R180): The stream unit fetches or folds an element at the core. -/
  | coreElementFetch (tid : BitVec 48) (s : BitVec 2)
  /-- ELEMENT_ARRIVAL (R187): A fetched element arrives in the core's stream buffer. -/
  | elementArrival (tid : BitVec 48) (s : BitVec 2)
  /-- ALIAS_NOTE (R190): A store hitting a floated stream's footprint sends a note that the station answers with a re-read. -/
  | aliasNote (tid : BitVec 48) (s : BitVec 2) (j : Nat)
  /-- ALIAS_REREAD_ANSWER (R190): The re-read value reaches the core and clears the pending index. -/
  | aliasRereadAnswer (tid : BitVec 48) (s : BitVec 2)
  /-- ELEMENT_FAULT (R192): An element fetch fails and the stream becomes faulted. -/
  | elementFault (tid : BitVec 48) (s : BitVec 2)
  /-- SADDLEBAG_HOME (R188): The saddlebag reaches home; the recall event is raised. -/
  | saddlebagHome (tid : BitVec 48) (s : BitVec 2)
  /-- STREAM_SINK (R184): After the last fold the core performs the sink to register, port or memory. -/
  | streamSink (tid : BitVec 48) (s : BitVec 2)
  /-- INDEXED_ELEMENT_REQUEST (R191): A remote core's interface reads an indexed element and replies. -/
  | indexedElementRequest (tid : BitVec 48) (s : BitVec 2)
  /-- DEMAND_PAGING_FAULT (R332): A translation finding DP set parks the task's group and posts a type 1 record. -/
  | demandPagingFault (va : Word) (code : BitVec 8)
  /-- PAGE_WALK (R324): A walker pool walk translates a miss, setting a frame's code bit first when installing X. -/
  | pageWalk (core : Nat) (aspace va : Word) (fetch : Bool)
  /-- CODE_STORE_MARK (R328): A code store marks its line and invalidates I-cache copies before it performs. -/
  | codeStoreMark (tid : BitVec 48) (die : BitVec 2) (pa : Nat)
  /-- CODE_STORE_MARK_TIMEOUT (R328): A task's code store waiting 65,536 clks for a mark takes the resource-exhaustion trap. -/
  | codeStoreMarkTimeout (tid : BitVec 48)
  /-- GROOM_MARK_WAIT_RECORD (R328): A groom or sink store waiting 65,536 clks posts a type 7 record and waits on. -/
  | groomMarkWaitRecord (tid : BitVec 48) (pa desc : Word)
  /-- HOST_CODE_WRITE (R327): A host CXL write to a code line invalidates every I-cache copy without marking. -/
  | hostCodeWrite (pa : Nat) (bytes : List Byte)
  /-- DIR_GETS (R150): A read miss at the home L2 directory. -/
  | dirGets (die : BitVec 2) (line q : Nat)
  /-- DIR_GETX (R150): A write miss at the home L2 directory. -/
  | dirGetx (die : BitVec 2) (line q : Nat)
  /-- DIR_UPG (R151): An upgrade of a shared copy, granted without data or served as GetX. -/
  | dirUpg (die : BitVec 2) (line q : Nat)
  /-- DIR_PUTX (R150): An owner writes a line back to its home L2. -/
  | dirPutx (die : BitVec 2) (line q : Nat)
  /-- L3_READ (R152): A die's read request at the home L3 slice. -/
  | l3Read (line : Nat) (x : BitVec 2)
  /-- L3_OWNERSHIP (R152): A die's ownership request at the home L3 slice. -/
  | l3Ownership (line : Nat) (x : BitVec 2)
  /-- L3_WRITE_BACK (R152): A die writes dirty data back to the L3 slice. -/
  | l3WriteBack (line : Nat) (x : BitVec 2)
  /-- BACK_INVALIDATION (R153): A snoop-filter eviction back-invalidates every holding die. -/
  | backInvalidation (line : Nat)
  /-- SINV_WRITE_THROUGH (R146): A SINV store is written through and acknowledged by the home L2 slice. -/
  | sinvWriteThrough (die : BitVec 2) (line : Nat)
  /-- COUNTER_OP (R302): An add, wait or read is performed at the counter home in arrival order. -/
  | counterOp (pa : Nat) (op : CounterOp) (tid : BitVec 48) (va : Word)
  /-- COUNTER_WAIT_COMPLETE (R314): An add meets a waiter's target and the wait completes. -/
  | counterWaitComplete (tid : BitVec 48)
  /-- GROUP_CHANGE (R298): A JOIN or LEAVE takes effect at the group's home in arrival order. -/
  | groupChange (pa : Nat) (joins : Bool) (tid : BitVec 48)
  /-- KERNEL_LOAD (R281): A launch loads a declaration, allocating queues, MIN cores and a KID. -/
  | kernelLoad (tenant : BitVec 12) (vf : BitVec 6) (decl : Word)
  /-- DOORBELL_LAUNCH (R282): Writing 0x078 posts a launch record to the virtual function's buffer. -/
  | doorbellLaunch (tenant : BitVec 12) (vf : BitVec 6) (rec : BitVec 1024)
  /-- DOORBELL_RECORD_TAKE (R282): The device takes the next buffered doorbell record and places its entry. -/
  | doorbellRecordTake (tenant : BitVec 12) (vf : BitVec 6)
  /-- DOORBELL_DRAIN (R282): Writing a KH at 0x080 drains that kernel. -/
  | doorbellDrain (tenant : BitVec 12) (vf : BitVec 6) (kh : Word)
  /-- DOORBELL_SELECT (R282): Writing a KH at 0x098 selects it for status. -/
  | doorbellSelect (tenant : BitVec 12) (vf : BitVec 6) (kh : Word)
  /-- DOORBELL_RESUME (R335): Writing SEQ at 0x090 posts a resume. -/
  | doorbellResume (tenant : BitVec 12) (vf : BitVec 6) (seq : BitVec 32)
  /-- FEAT_MASK_COMMIT (R383): Writing byte 0x0BF commits FEAT as offer AND mask. -/
  | featMaskCommit (tenant : BitVec 12) (vf : BitVec 6) (mask : BitVec 128)
  /-- ACTIVATION_PLACE (R283): The gait controller places a stage's head entry as a new activation. -/
  | activationPlace (tenant : BitVec 12) (kid : BitVec 6) (stage : BitVec 4)
  /-- GAIT_PERIOD_END (R285): At each 1,024-clk period end, binds one core to a needy stage and returns idle cores. -/
  | gaitPeriodEnd (tenant : BitVec 12) (kid : BitVec 6)
  /-- GAIT_CORE_REBIND (R285): An unbound core binds to its new stage once old activations have left. -/
  | gaitCoreRebind (tenant : BitVec 12) (kid : BitVec 6) (core : Nat)
  /-- KERNEL_RETIRE (R279): A draining or faulted kernel with nothing queued or live retires. -/
  | kernelRetire (tenant : BitVec 12) (kid : BitVec 6)
  /-- HANDOVER_MARK (R344): Step 1: frames marked in transit, requests held, halters drained. -/
  | handoverMark (stack : BitVec 4)
  /-- HANDOVER_DRAIN (R344): Step 2: pending stores of the giving die drain to DRAM. -/
  | handoverDrain (stack : BitVec 4)
  /-- HANDOVER_WRITEBACK (R344): Step 3: lines written back and invalidated, marks moved. -/
  | handoverWriteback (stack : BitVec 4)
  /-- HANDOVER_SHOOTDOWN (R344): Step 4: translations of the stack dropped on the giving die. -/
  | handoverShootdown (stack : BitVec 4)
  /-- HANDOVER_PORT_SWITCH (R344): Step 5: channel controllers switch to the receiving side. -/
  | handoverPortSwitch (stack : BitVec 4)
  /-- HANDOVER_FLIP (R344): Step 6: the access right flips and held requests and home state pass to the new home. -/
  | handoverFlip (stack : BitVec 4)
  /-- HANDOVER_COMPLETE (R344): Step 7: the named counter receives a release add and the stack becomes owned. -/
  | handoverComplete (stack : BitVec 4)
  /-- STACK_OFFLINE (R341): The farrier monitor takes a stack offline. -/
  | stackOffline (stack : BitVec 4)
  /-- STACK_SCRUB (R341): The farrier monitor scrubs an offline stack with zeros. -/
  | stackScrub (stack : BitVec 4)
  /-- STACK_ASSIGN (R341): The farrier monitor assigns a scrubbed stack to a paddock. -/
  | stackAssign (stack : BitVec 4) (tenant : BitVec 12) (reach : BitVec 4)
  /-- ISLAND_HOLD (R155): Before Hold, cores write back and release ownership. -/
  | islandHold (island : BitVec 7)
  /-- SLEEP_PROXY_INVALIDATE (R155): The sleep proxy acknowledges an invalidation and logs the line. -/
  | sleepProxyInvalidate (core : Nat) (index : BitVec 12)
  /-- ISLAND_WAKE (R155): On wake the core drops logged and SINV lines and clears SGEN. -/
  | islandWake (island : BitVec 7)
  /-- ISLAND_OFF (R21): The farrier monitor powers off an island that holds no task. -/
  | islandOff (island : BitVec 7)
  /-- ISSUE_GATING (R21): The farrier monitor gates issue slots to stay within budget. -/
  | issueGating (core : Nat) (clks : Nat)
  /-- LINK_ENABLE (R358): The farrier monitor enables a link, which starts training. -/
  | linkEnable (link : BitVec 5)
  /-- LINK_TRAINED (R358): Training completes at full or reduced width. -/
  | linkTrained (link : BitVec 5) (lanes : BitVec 5) (half : Bool)
  /-- LINK_TRAINING_TIMEOUT (R358): A link not trained within 100 ms goes down. -/
  | linkTrainingTimeout (link : BitVec 5)
  /-- LANE_FAILURE (R358): A lane fails and the link retrains as degraded. -/
  | laneFailure (link : BitVec 5) (lanes : BitVec 5) (half : Bool)
  /-- LINK_RETRAIN (R358): The farrier monitor retrains a degraded link to full. -/
  | linkRetrain (link : BitVec 5)
  /-- LINK_DISABLE (R358): The farrier monitor disables a link. -/
  | linkDisable (link : BitVec 5)
  /-- LINK_QUARANTINE (R358): A link is quarantined by replay rate, uncorrectable flit, tenant violation or command. -/
  | linkQuarantine (link : BitVec 5) (why : BitVec 4)
  /-- FLIT_RECEIVE (R356): A flit arrives; a CRC failure makes the sender replay it. -/
  | flitReceive (link : BitVec 5) (crcOk : Bool)
  /-- REPLAY_RATE_WINDOW (R358): The 1 ms replay window is checked against the 2^16 limit. -/
  | replayRateWindow (link : BitVec 5)
  /-- TENANT_DROP (R367): A router drops a message of a tenant whose bit is clear and reports it. -/
  | tenantDrop (router : Nat) (tenant : BitVec 12)
  /-- PEER_WORD_RECEIVE (R363): A peer package accepts or discards a numbered word and acknowledges it. -/
  | peerWordReceive (pkg : PeerLink) (src : BitVec 14) (seq : Nat) (core : Nat) (w : PortWord)
  /-- PEER_PORT_REPLAY (R363): A port leaving the usable set makes the core replay unacknowledged words. -/
  | peerPortReplay (core : Nat) (pkg : BitVec 12)
  /-- STOP_MATCH (R369): A stop entry matches and the task takes a debug stop with a stop record. -/
  | stopMatch (tid : BitVec 48)
  /-- TRACE_RECORD (R373): In record mode a home port writes an entry for each placed store. -/
  | traceRecord (tenant : BitVec 12) (port : BitVec 22) (src : BitVec 14) (pa : Word)
  /-- REPLAY_ARRIVAL (R374): In replay mode a port places, holds or diverges on an arrival. -/
  | replayArrival (tenant : BitVec 12) (port : BitVec 22) (src : BitVec 14) (pa : Word)
  /-- PROFILE_UPDATE (R371): A consumed message updates its sender's profile entry. -/
  | profileUpdate (core : Nat) (rank : BitVec 20) (transit wait run : BitVec 32)
  /-- MONITOR_SAMPLE (R372): A sample enters a monitor's bins, minimum and maximum. -/
  | monitorSample (cluster : Nat) (n : BitVec 2) (x : Nat)
  /-- DEBUG_TOKEN (R376): A token written through the sideband is checked and grants features. -/
  | debugToken (token : List Byte)
  /-- QUOTE_REQUEST (R384): A quote request returns the log signed with the identity key. -/
  | quoteRequest (nonce : BitVec 384) (tenant : Option (BitVec 12))
  /-- PACKAGE_RESET (R378): After reset the boot steps run in order. -/
  | packageReset (cfg : BootInput)
  /-- SUPERVISOR_START (R381): The monitor starts each paddock's supervisor task. -/
  | supervisorStart (tenant : BitVec 12)
  /-- PARTITION_RESET (R386): The monitor stops, retires, scrubs and reboots a paddock. -/
  | partitionReset (tenant : BitVec 12)
  /-- HOST_MEMORY_ACCESS (R364): A host read or write through CXL.mem or CXL.cache to package memory is performed as a fabric-port access at .x. -/
  | hostMemoryAccess (target : HostTarget) (n : Nat) (write : Option (List Byte))
  /-- FAULT_QUEUE_HEADER_WRITE (R365): A host write to doorbell offset 0x0C0 places the virtual function's fault-queue ring header. -/
  | faultQueueHeaderWrite (tenant : BitVec 12) (vf : BitVec 6) (addr : Word)
  /-- BASE_ISLAND_RATE_CHANGE (R21): A base island's L3 and DRAM-interface clocks change between full and half rate. -/
  | baseIslandRateChange (island : BitVec 7) (half : Bool)
deriving DecidableEq, Repr

end Sys2Proof
end

