-- ==== Sys2Proof/Machine/Fields.lean ====
section
/-! DEFINITION. The field tables of the instructions and the conditions of R60 on them: which fields each instruction
uses (R58, R78, R114, R116, R194, R220, R247, R276, R290, R301, R311, R336, R349) and the illegal-instruction causes 4 to 7
that a use of its fields raises (R60, R387). -/

namespace Sys2Proof

/-- Form of the first word (R48). -/
inductive Form where | A | I | K | M | B | J
deriving DecidableEq, Repr

/-- What a register position names (R52, R53): nothing, a register file, a number, or v (g under .sa, R125). -/
inductive Use where | no | g | v | p | t | s | num | vOrG
deriving DecidableEq, Repr

/-- How an instruction uses the scope field: not at all, only with an ordering, up to a code, or one code only. -/
inductive ScUse where | no | withOrd | upTo (n : Nat) | only (n : Nat)
deriving DecidableEq, Repr

/-- Whether a nonzero rounding field is unused (cause 7), refused (cause 6, R104, R114, R220) or the rounding mode. -/
inductive RmUse where | seven | six | used
deriving DecidableEq, Repr

/-- One row of the field tables. `m`, `ord` and `tag` give the legal codes as a set of bits (bit k: code k is legal), `mod`
the bits that may be set; `none` means that the instruction does not use the field (R387). -/
structure Row where
  op   : BitVec 7
  fn   : BitVec 5 := 0
  form : Form := .A
  lens : List Len := [.w1, .w2]
  d    : Use := .no
  a    : Use := .no
  b    : Use := .no
  c    : Use := .no
  m    : Option (BitVec 8) := none
  mod  : Option (BitVec 5) := none
  ord  : Option (BitVec 4) := none
  sc   : ScUse := .no
  ri   : Bool := false
  la   : Bool := false
  tag  : Option (BitVec 32) := none
  rm   : RmUse := .seven
deriving DecidableEq, Repr

/-- Length code (R47). -/
def Len.code : Len → BitVec 2 | .w1 => 0 | .w2 => 1 | .w3 => 2
/-- Length in bytes (R47). -/
def Len.bytes : Len → Nat | .w1 => 4 | .w2 => 8 | .w3 => 12
/-- Length of a length code; 0b11 is none (R47). -/
def Len.ofCode (n : Nat) : Option Len := if n = 0 then some .w1 else if n = 1 then some .w2 else if n = 2 then some .w3 else none

/-- Ordering code (R49). -/
def Order.code : Order → BitVec 2 | .none => 0 | .acq => 1 | .rel => 2 | .ar => 3
def Order.ofCode (n : Nat) : Order := if n = 0 then .none else if n = 1 then .acq else if n = 2 then .rel else .ar
/-- Does the ordering include an acquire, a release (R100)? -/
def Order.isAcq : Order → Bool | .acq | .ar => true | _ => false
def Order.isRel : Order → Bool | .rel | .ar => true | _ => false

/-- Scope code (R6). -/
def Scope.code : Scope → BitVec 3 | .c => 0 | .k => 1 | .d => 2 | .p => 3 | .x => 4
def Scope.ofCode (n : Nat) : Option Scope :=
  if n = 0 then some .c else if n = 1 then some .k else if n = 2 then some .d else if n = 3 then some .p
  else if n = 4 then some .x else none

/-- Rounding code (R34). -/
def Rm.code : Rm → BitVec 3 | .rne => 0 | .rz => 1 | .rd => 2 | .ru => 3 | .rs => 4
def Rm.ofCode (n : Nat) : Option Rm :=
  if n = 0 then some .rne else if n = 1 then some .rz else if n = 2 then some .rd else if n = 3 then some .ru
  else if n = 4 then some .rs else none

/-- Tag code (R32). -/
def Fmt.code : Fmt → BitVec 5
  | .raw => 0x00 | .i4 => 0x01 | .n4 => 0x02 | .i8 => 0x03 | .n8 => 0x04 | .i16 => 0x05 | .n16 => 0x06 | .i32 => 0x07
  | .n32 => 0x08 | .i64 => 0x09 | .n64 => 0x0A | .fp32 => 0x10 | .fp16 => 0x11 | .bf16 => 0x12 | .e4m3 => 0x13
  | .e5m2 => 0x14 | .e2m1 => 0x15 | .mxfp4 => 0x18 | .ob4 => 0x19
/-- The format of a tag code; a reserved code is none (R32). -/
def Fmt.ofCode (n : Nat) : Option Fmt :=
  if n = 0x00 then some .raw else if n = 0x01 then some .i4 else if n = 0x02 then some .n4 else if n = 0x03 then some .i8
  else if n = 0x04 then some .n8 else if n = 0x05 then some .i16 else if n = 0x06 then some .n16
  else if n = 0x07 then some .i32 else if n = 0x08 then some .n32 else if n = 0x09 then some .i64
  else if n = 0x0A then some .n64 else if n = 0x10 then some .fp32 else if n = 0x11 then some .fp16
  else if n = 0x12 then some .bf16 else if n = 0x13 then some .e4m3 else if n = 0x14 then some .e5m2
  else if n = 0x15 then some .e2m1 else if n = 0x18 then some .mxfp4 else if n = 0x19 then some .ob4 else none

/-- Function code of a CmpCond (R86). -/
def CmpCond.code : CmpCond → BitVec 5
  | .eq => 0 | .ne => 1 | .lt => 2 | .ge => 3 | .gt => 4 | .le => 5
def CmpCond.ofCode (n : Nat) : Option CmpCond :=
  if n = 0 then some .eq else if n = 1 then some .ne else if n = 2 then some .lt else if n = 3 then some .ge else if n = 4 then some .gt else if n = 5 then some .le else none

/-- Function code of a VCmpCond (R126). -/
def VCmpCond.code : VCmpCond → BitVec 5
  | .eq => 0 | .ne => 1 | .lt => 2 | .ge => 3 | .gt => 4 | .le => 5 | .un => 6
def VCmpCond.ofCode (n : Nat) : Option VCmpCond :=
  if n = 0 then some .eq else if n = 1 then some .ne else if n = 2 then some .lt else if n = 3 then some .ge else if n = 4 then some .gt else if n = 5 then some .le else if n = 6 then some .un else none

/-- Function code of a AmoOp (R101). -/
def AmoOp.code : AmoOp → BitVec 5
  | .swap => 0 | .add => 1 | .and => 2 | .or => 3 | .xor => 4 | .min => 5 | .max => 6
def AmoOp.ofCode (n : Nat) : Option AmoOp :=
  if n = 0 then some .swap else if n = 1 then some .add else if n = 2 then some .and else if n = 3 then some .or else if n = 4 then some .xor else if n = 5 then some .min else if n = 6 then some .max else none

/-- Function code of a VRedOp (R131). -/
def VRedOp.code : VRedOp → BitVec 5
  | .add => 0 | .min => 1 | .max => 2 | .and => 3 | .or => 4 | .xor => 5
def VRedOp.ofCode (n : Nat) : Option VRedOp :=
  if n = 0 then some .add else if n = 1 then some .min else if n = 2 then some .max else if n = 3 then some .and else if n = 4 then some .or else if n = 5 then some .xor else none

/-- Function code of a SfFn (R133). -/
def SfFn.code : SfFn → BitVec 5
  | .rcp => 0 | .sqrt => 1 | .rsqrt => 2 | .exp2 => 3 | .log2 => 4 | .tanh => 5 | .sigm => 6
def SfFn.ofCode (n : Nat) : Option SfFn :=
  if n = 0 then some .rcp else if n = 1 then some .sqrt else if n = 2 then some .rsqrt else if n = 3 then some .exp2 else if n = 4 then some .log2 else if n = 5 then some .tanh else if n = 6 then some .sigm else none

/-- Tags 0x00 and 0x03 to 0x0A (R76, R113). -/
def intTags : BitVec 32 := 0x000007F9
/-- The integers and FP32, FP16, BF16 (R113). -/
def intFloats : BitVec 32 := 0x000707F9
/-- FP32, FP16 and BF16 (R113). -/
def floats : BitVec 32 := 0x00070001
/-- Every assigned tag (R32). -/
def anyTag : BitVec 32 := 0x033F07FF
/-- Every assigned tag but 0x00 (R128, R135, R217, R218). -/
def notRaw : BitVec 32 := 0x033F07FE
/-- Every assigned tag but the block formats (R117). -/
def noBlocks : BitVec 32 := 0x003F07FF
/-- The block formats (R120). -/
def blocks : BitVec 32 := 0x03000000
/-- 0x00 and the accumulator formats I32 and FP32 (R130). -/
def accTags : BitVec 32 := 0x00010081

/-- The field-table row of an instruction; an event has no encoding. VMOV's copy and .get define no bit of mod, which VMOV uses, and its
.get and .set have no use for m. DEDUCED: assumption 28. -/
def Instr.row : Instr → Option Row
  | .nop _ => some { op := 0x01 }
  | .add _ => some { op := 0x02, lens := [.w1, .w2, .w3], d := .g, a := .g, b := .g, mod := some 1, tag := some intTags }
  | .sub _ => some { op := 0x03, lens := [.w1, .w2, .w3], d := .g, a := .g, b := .g, mod := some 1, tag := some intTags }
  | .mul _ => some { op := 0x04, lens := [.w1, .w2, .w3], d := .g, a := .g, b := .g, mod := some 1, tag := some intTags }
  | .mulh _ => some { op := 0x04, fn := 1, lens := [.w1, .w2, .w3], d := .g, a := .g, b := .g, tag := some intTags }
  | .div _ => some { op := 0x05, lens := [.w1, .w2, .w3], d := .g, a := .g, b := .g, la := true, tag := some intTags }
  | .rem _ => some { op := 0x05, fn := 1, lens := [.w1, .w2, .w3], d := .g, a := .g, b := .g, la := true, tag := some intTags }
  | .and _ => some { op := 0x06, lens := [.w1, .w2, .w3], d := .g, a := .g, b := .g, tag := some intTags }
  | .or _ => some { op := 0x06, fn := 1, lens := [.w1, .w2, .w3], d := .g, a := .g, b := .g, tag := some intTags }
  | .xor _ => some { op := 0x06, fn := 2, lens := [.w1, .w2, .w3], d := .g, a := .g, b := .g, tag := some intTags }
  | .andn _ => some { op := 0x06, fn := 3, lens := [.w1, .w2, .w3], d := .g, a := .g, b := .g, tag := some intTags }
  | .orn _ => some { op := 0x06, fn := 4, lens := [.w1, .w2, .w3], d := .g, a := .g, b := .g, tag := some intTags }
  | .xnor _ => some { op := 0x06, fn := 5, lens := [.w1, .w2, .w3], d := .g, a := .g, b := .g, tag := some intTags }
  | .shl _ => some { op := 0x07, d := .g, a := .g, b := .g, tag := some intTags }
  | .shr _ => some { op := 0x07, fn := 1, d := .g, a := .g, b := .g, tag := some intTags }
  | .sar _ => some { op := 0x07, fn := 2, d := .g, a := .g, b := .g, tag := some intTags }
  | .rol _ => some { op := 0x07, fn := 3, d := .g, a := .g, b := .g, tag := some intTags }
  | .ror _ => some { op := 0x07, fn := 4, d := .g, a := .g, b := .g, tag := some intTags }
  | .min _ => some { op := 0x08, lens := [.w1, .w2, .w3], d := .g, a := .g, b := .g, tag := some intTags }
  | .max _ => some { op := 0x08, fn := 1, lens := [.w1, .w2, .w3], d := .g, a := .g, b := .g, tag := some intTags }
  | .cmp k _ => some { op := 0x09, fn := k.code, lens := [.w1, .w2, .w3], d := .g, a := .g, b := .g, tag := some intTags }
  | .sel _ => some { op := 0x0A, lens := [.w2], d := .g, a := .g, b := .g, c := .g }
  | .addi _ => some { op := 0x0B, form := .I, lens := [.w1, .w2, .w3], d := .g, a := .g, mod := some 1, tag := some intTags }
  | .andi _ => some { op := 0x0C, form := .K, lens := [.w1, .w2, .w3], d := .g, a := .g, tag := some intTags }
  | .ori _ => some { op := 0x0C, fn := 1, form := .K, lens := [.w1, .w2, .w3], d := .g, a := .g, tag := some intTags }
  | .xori _ => some { op := 0x0C, fn := 2, form := .K, lens := [.w1, .w2, .w3], d := .g, a := .g, tag := some intTags }
  | .shli _ => some { op := 0x0D, form := .K, lens := [.w1, .w2, .w3], d := .g, a := .g, tag := some intTags }
  | .shri _ => some { op := 0x0D, fn := 1, form := .K, lens := [.w1, .w2, .w3], d := .g, a := .g, tag := some intTags }
  | .sari _ => some { op := 0x0D, fn := 2, form := .K, lens := [.w1, .w2, .w3], d := .g, a := .g, tag := some intTags }
  | .roli _ => some { op := 0x0D, fn := 3, form := .K, lens := [.w1, .w2, .w3], d := .g, a := .g, tag := some intTags }
  | .rori _ => some { op := 0x0D, fn := 4, form := .K, lens := [.w1, .w2, .w3], d := .g, a := .g, tag := some intTags }
  | .li _ => some { op := 0x0E, form := .I, lens := [.w1, .w2, .w3], d := .g }
  | .lih _ => some { op := 0x0F, form := .I, lens := [.w3], d := .g, a := .g }
  | .beq _ => some { op := 0x10, form := .B, lens := [.w1, .w2, .w3], a := .g, b := .g }
  | .bne _ => some { op := 0x11, form := .B, lens := [.w1, .w2, .w3], a := .g, b := .g }
  | .blt _ => some { op := 0x12, form := .B, lens := [.w1, .w2, .w3], a := .g, b := .g }
  | .bge _ => some { op := 0x13, form := .B, lens := [.w1, .w2, .w3], a := .g, b := .g }
  | .blo _ => some { op := 0x14, form := .B, lens := [.w1, .w2, .w3], a := .g, b := .g }
  | .bhs _ => some { op := 0x15, form := .B, lens := [.w1, .w2, .w3], a := .g, b := .g }
  | .jal _ => some { op := 0x16, form := .J, lens := [.w1, .w2, .w3], d := .g }
  | .jalr _ => some { op := 0x17, form := .I, d := .g, a := .g }
  | .addpc _ => some { op := 0x18, form := .J, lens := [.w1, .w2, .w3], d := .g }
  | .ld _ => some { op := 0x20, form := .M, lens := [.w1, .w2, .w3], d := .g, a := .g, m := some 0xFF, ord := some 3, sc := .withOrd, la := true }
  | .st _ => some { op := 0x21, form := .M, lens := [.w1, .w2, .w3], d := .g, a := .g, m := some 0x0F, ord := some 5, sc := .withOrd }
  | .amo k _ => some { op := 0x22, fn := k.code, d := .g, a := .g, b := .g, m := some 0xCC, ord := some 15, sc := .withOrd, la := true }
  | .cas _ => some { op := 0x23, lens := [.w2], d := .g, a := .g, b := .g, c := .g, m := some 0xCC, ord := some 15, sc := .withOrd, la := true }
  | .famo _ => some { op := 0x24, d := .g, a := .g, b := .g, m := some 0x03, ord := some 15, sc := .withOrd, la := true, rm := .six }
  | .fence _ => some { op := 0x25, ord := some 15, sc := .upTo 4 }
  | .pubc _ => some { op := 0x25, fn := 1, sc := .upTo 3 }
  | .vld _ => some { op := 0x30, lens := [.w1, .w2, .w3], d := .v, a := .g, b := .g, m := some 0xFF, ord := some 3, sc := .withOrd, la := true, tag := some noBlocks, rm := .six }
  | .vst _ => some { op := 0x31, lens := [.w1, .w2, .w3], d := .v, a := .g, b := .g, m := some 0xFF, ord := some 5, sc := .withOrd, tag := some noBlocks, rm := .six }
  | .vadd _ => some { op := 0x32, d := .v, a := .v, b := .v, m := some 0xFF, mod := some 3, ri := true, tag := some intFloats, rm := .six }
  | .vsub _ => some { op := 0x32, fn := 1, d := .v, a := .v, b := .v, m := some 0xFF, mod := some 3, ri := true, tag := some intFloats, rm := .six }
  | .vmul _ => some { op := 0x32, fn := 2, d := .v, a := .v, b := .v, m := some 0xFF, mod := some 3, ri := true, tag := some intFloats, rm := .six }
  | .vmulh _ => some { op := 0x32, fn := 3, d := .v, a := .v, b := .v, m := some 0xFF, mod := some 1, ri := true, tag := some intTags, rm := .six }
  | .vdiv _ => some { op := 0x32, fn := 4, d := .v, a := .v, b := .v, m := some 0xFF, mod := some 1, ri := true, la := true, tag := some floats, rm := .six }
  | .vmin _ => some { op := 0x32, fn := 5, d := .v, a := .v, b := .v, m := some 0xFF, mod := some 1, ri := true, tag := some intFloats, rm := .six }
  | .vmax _ => some { op := 0x32, fn := 6, d := .v, a := .v, b := .v, m := some 0xFF, mod := some 1, ri := true, tag := some intFloats, rm := .six }
  | .vabs _ => some { op := 0x32, fn := 7, d := .v, a := .v, m := some 0xFF, mod := some 3, ri := true, tag := some intFloats, rm := .six }
  | .vneg _ => some { op := 0x32, fn := 8, d := .v, a := .v, m := some 0xFF, mod := some 3, ri := true, tag := some intFloats, rm := .six }
  | .vand _ => some { op := 0x32, fn := 9, d := .v, a := .v, b := .v, m := some 0xFF, mod := some 1, ri := true, tag := some anyTag, rm := .six }
  | .vor _ => some { op := 0x32, fn := 10, d := .v, a := .v, b := .v, m := some 0xFF, mod := some 1, ri := true, tag := some anyTag, rm := .six }
  | .vxor _ => some { op := 0x32, fn := 11, d := .v, a := .v, b := .v, m := some 0xFF, mod := some 1, ri := true, tag := some anyTag, rm := .six }
  | .vandn _ => some { op := 0x32, fn := 12, d := .v, a := .v, b := .v, m := some 0xFF, mod := some 1, ri := true, tag := some anyTag, rm := .six }
  | .vfma _ => some { op := 0x33, lens := [.w2], d := .v, a := .v, b := .v, c := .v, m := some 0xFF, mod := some 3, ri := true, tag := some intFloats, rm := .six }
  | .vfms _ => some { op := 0x33, fn := 1, lens := [.w2], d := .v, a := .v, b := .v, c := .v, m := some 0xFF, mod := some 3, ri := true, tag := some intFloats, rm := .six }
  | .vfnma _ => some { op := 0x33, fn := 2, lens := [.w2], d := .v, a := .v, b := .v, c := .v, m := some 0xFF, mod := some 3, ri := true, tag := some intFloats, rm := .six }
  | .vfnms _ => some { op := 0x33, fn := 3, lens := [.w2], d := .v, a := .v, b := .v, c := .v, m := some 0xFF, mod := some 3, ri := true, tag := some intFloats, rm := .six }
  | .vshl _ => some { op := 0x34, d := .v, a := .v, b := .vOrG, m := some 0xFF, mod := some 3, ri := true, tag := some intTags, rm := .six }
  | .vshr _ => some { op := 0x34, fn := 1, d := .v, a := .v, b := .vOrG, m := some 0xFF, mod := some 3, ri := true, tag := some intTags, rm := .six }
  | .vsar _ => some { op := 0x34, fn := 2, d := .v, a := .v, b := .vOrG, m := some 0xFF, mod := some 3, ri := true, tag := some intTags, rm := .six }
  | .vrol _ => some { op := 0x34, fn := 3, d := .v, a := .v, b := .vOrG, m := some 0xFF, mod := some 3, ri := true, tag := some intTags, rm := .six }
  | .vror _ => some { op := 0x34, fn := 4, d := .v, a := .v, b := .vOrG, m := some 0xFF, mod := some 3, ri := true, tag := some intTags, rm := .six }
  | .vcmp k _ => some { op := 0x35, fn := k.code, d := .v, a := .v, b := .v, m := some 0xFF, mod := some 1, ri := true, tag := some intFloats, rm := .six }
  | .vsel _ => some { op := 0x36, d := .v, a := .v, b := .v, c := .v, m := some 0xFF, mod := some 1, ri := true, tag := some anyTag, rm := .six }
  | .vcvt _ => some { op := 0x37, lens := [.w2], d := .v, a := .v, c := .num, m := some 0xFF, mod := some 31, tag := some notRaw, rm := .used }
  | .vdot _ => some { op := 0x38, d := .v, a := .v, b := .v, m := some 0xFF, mod := some 15, tag := some accTags, rm := .six }
  | .vred k _ => some { op := 0x39, fn := k.code, d := .v, a := .v, m := some 0xFF, mod := some 2, ri := true, la := true, tag := some anyTag, rm := .six }
  | .vpermTbl _ => some { op := 0x3A, d := .v, a := .v, b := .v, m := some 0xFF, mod := some 1, ri := true, tag := some anyTag, rm := .six }
  | .vpermBcast _ => some { op := 0x3A, fn := 1, d := .v, a := .v, b := .g, m := some 0xFF, mod := some 1, ri := true, tag := some anyTag, rm := .six }
  | .vpermRev _ => some { op := 0x3A, fn := 2, d := .v, a := .v, m := some 0xFF, mod := some 1, ri := true, tag := some anyTag, rm := .six }
  | .vsf k _ => some { op := 0x3B, fn := k.code, d := .v, a := .v, m := some 0xFF, mod := some 1, ri := true, la := true, tag := some floats, rm := .six }
  | .vtopk _ => some { op := 0x3C, d := .v, a := .v, b := .g, c := .v, m := some 0xFF, mod := some 31, la := true, tag := some intFloats, rm := .six }
  | .pset _ => some { op := 0x3D, d := .p, a := .g, b := .num, tag := some anyTag, rm := .six }
  | .pcnt _ => some { op := 0x3D, fn := 1, d := .g, a := .p, rm := .six }
  | .prd _ => some { op := 0x3D, fn := 2, d := .g, a := .p, rm := .six }
  | .pwr _ => some { op := 0x3D, fn := 3, d := .p, a := .g, rm := .six }
  | .pbrk _ => some { op := 0x3D, fn := 4, d := .p, a := .v, m := some 0xFF, rm := .six }
  | .vmovCopy _ => some { op := 0x3E, d := .v, a := .v, m := some 0xFF, mod := some 0, ri := true, tag := some anyTag, rm := .six }
  | .vmovBcast _ => some { op := 0x3E, fn := 1, lens := [.w1, .w2, .w3], d := .v, b := .g, m := some 0xFF, mod := some 1, tag := some notRaw, rm := .six }
  | .vmovGet _ => some { op := 0x3E, fn := 2, d := .g, a := .v, b := .g, mod := some 0, tag := some anyTag, rm := .six }
  | .vmovSet _ => some { op := 0x3E, fn := 3, d := .v, a := .g, b := .g, mod := some 1, tag := some anyTag, rm := .six }
  | .vldb _ => some { op := 0x3F, d := .v, a := .g, b := .g, m := some 0xFF, ord := some 3, sc := .withOrd, la := true, tag := some blocks, rm := .six }
  | .vstb _ => some { op := 0x3F, fn := 1, d := .v, a := .g, b := .g, m := some 0xFF, ord := some 5, sc := .withOrd, tag := some blocks, rm := .six }
  | .sdef _ => some { op := 0x40, d := .s, a := .g }
  | .sgo _ => some { op := 0x41, a := .s, ord := some 5, sc := .withOrd }
  | .snext _ => some { op := 0x42, d := .g, a := .s, la := true, tag := some anyTag }
  | .snextVector _ => some { op := 0x42, fn := 1, d := .v, a := .s, m := some 0xFF, la := true, tag := some anyTag }
  | .sput _ => some { op := 0x43, a := .s, b := .g, ord := some 5, sc := .withOrd, tag := some anyTag }
  | .sputVector _ => some { op := 0x43, fn := 1, a := .s, b := .v, m := some 0xFF, ord := some 5, sc := .withOrd, tag := some anyTag }
  | .ssink _ => some { op := 0x44, d := .g, a := .s, la := true }
  | .srecall _ => some { op := 0x45, a := .s, la := true }
  | .swaitHome _ => some { op := 0x46, a := .s, la := true }
  | .swaitEnd _ => some { op := 0x46, fn := 1, a := .s, la := true }
  | .sstat _ => some { op := 0x47, d := .g, a := .s }
  | .sstatClr _ => some { op := 0x47, fn := 1, d := .g, a := .s }
  | .shold _ => some { op := 0x48, a := .s }
  | .sholdOff _ => some { op := 0x48, fn := 1, a := .s }
  | .sfree _ => some { op := 0x49, a := .s }
  | .tld _ => some { op := 0x50, d := .t, a := .g, b := .g, c := .g, mod := some 31, ord := some 3, sc := .upTo 4, la := true, tag := some anyTag, rm := .six }
  | .tst _ => some { op := 0x51, d := .t, a := .g, b := .g, c := .g, mod := some 31, ord := some 5, sc := .upTo 4, tag := some anyTag, rm := .six }
  | .tzero _ => some { op := 0x52, d := .t, tag := some anyTag, rm := .six }
  | .tfill _ => some { op := 0x53, d := .t, a := .g, tag := some notRaw, rm := .six }
  | .tcvt _ => some { op := 0x54, d := .t, a := .t, c := .num, mod := some 30, tag := some notRaw, rm := .used }
  | .tmov _ => some { op := 0x55, d := .t, a := .t, rm := .six }
  | .mma _ => some { op := 0x56, d := .t, a := .t, b := .t, c := .g, rm := .six }
  | .mmaWbuf _ => some { op := 0x56, fn := 1, d := .t, a := .t, b := .g, c := .g, rm := .six }
  | .mjob _ => some { op := 0x57, d := .g, a := .g, b := .g, ord := some 5, sc := .withOrd, la := true, rm := .six }
  | .jpoll _ => some { op := 0x58, d := .g, a := .g, rm := .six }
  | .jwait _ => some { op := 0x59, d := .g, a := .g, ord := some 3, sc := .withOrd, la := true, rm := .six }
  | .wld _ => some { op := 0x5A, d := .g, a := .g, b := .g, ord := some 3, sc := .withOrd, la := true, rm := .six }
  | .spawn _ => some { op := 0x60, d := .g, a := .g }
  | .exit _ => some { op := 0x61 }
  | .exitDump _ => some { op := 0x61, fn := 1 }
  | .yield _ => some { op := 0x62, a := .g }
  | .yieldSwap _ => some { op := 0x62, fn := 1, a := .g }
  | .tid _ => some { op := 0x63, d := .g }
  | .tidLoc _ => some { op := 0x63, fn := 1, d := .g }
  | .trap _ => some { op := 0x64, form := .I }
  | .eret _ => some { op := 0x65 }
  | .csrr _ => some { op := 0x66, form := .I, d := .g }
  | .csrw _ => some { op := 0x67, form := .I, a := .g }
  | .wfe _ => some { op := 0x68, d := .g, a := .g, b := .g, ord := some 3, sc := .withOrd }
  | .bkpt _ => some { op := 0x69, form := .I }
  | .migr _ => some { op := 0x6A, d := .g, a := .g, b := .g }
  | .sendm _ => some { op := 0x6B, a := .g, b := .g, ord := some 5, sc := .withOrd }
  | .mbind _ => some { op := 0x6C, d := .g, a := .g, b := .g }
  | .mfree _ => some { op := 0x6D, a := .g }
  | .rawaitProd _ => some { op := 0x6E, d := .g, a := .g, b := .g, ord := some 3, sc := .withOrd, la := true }
  | .rawaitCons _ => some { op := 0x6E, fn := 1, d := .g, a := .g, b := .g, ord := some 3, sc := .withOrd, la := true }
  | .rrelProd _ => some { op := 0x6F, a := .g, b := .g, ord := some 5, sc := .withOrd }
  | .rrelCons _ => some { op := 0x6F, fn := 1, a := .g, b := .g, ord := some 5, sc := .withOrd }
  | .cpy _ => some { op := 0x70, a := .g, ord := some 5, sc := .withOrd }
  | .cpym _ => some { op := 0x71, a := .g, ord := some 5, sc := .withOrd }
  | .launch _ => some { op := 0x72, d := .g, a := .g, ord := some 5, sc := .withOrd }
  | .launchDrain _ => some { op := 0x72, fn := 1, d := .g, a := .g }
  | .launchStat _ => some { op := 0x72, fn := 2, d := .g, a := .g }
  | .launchAbort _ => some { op := 0x72, fn := 3, d := .g, a := .g }
  | .emit _ => some { op := 0x73, d := .g, a := .g, b := .g, ord := some 5, sc := .withOrd }
  | .join _ => some { op := 0x74, d := .g, a := .g, ord := some 15, sc := .withOrd, la := true }
  | .leave _ => some { op := 0x75, d := .g, a := .g, b := .g, ord := some 15, sc := .withOrd, la := true }
  | .ginfoHdr _ => some { op := 0x76, d := .g, a := .g, ord := some 3, sc := .withOrd, la := true }
  | .ginfoMem _ => some { op := 0x76, fn := 1, d := .g, a := .g, b := .g, ord := some 3, sc := .withOrd, la := true }
  | .ginfoTid _ => some { op := 0x76, fn := 2, d := .g, a := .g, b := .g, ord := some 3, sc := .withOrd, la := true }
  | .cadd _ => some { op := 0x77, lens := [.w1, .w2, .w3], d := .g, a := .g, b := .g, ord := some 15, sc := .withOrd }
  | .caddSet _ => some { op := 0x77, fn := 1, lens := [.w1, .w2, .w3], d := .g, a := .g, b := .g, ord := some 15, sc := .withOrd }
  | .cwait _ => some { op := 0x78, lens := [.w1, .w2, .w3], d := .g, a := .g, b := .g, ord := some 3, sc := .withOrd }
  | .crd _ => some { op := 0x79, d := .g, a := .g, ord := some 3, sc := .withOrd, la := true }
  | .bexpect _ => some { op := 0x7A, d := .g, a := .g, b := .g, c := .g, ord := some 5, sc := .withOrd }
  | .bexpectInit _ => some { op := 0x7A, fn := 1, d := .g, a := .g, b := .g, ord := some 5, sc := .withOrd }
  | .bexpectGrp _ => some { op := 0x7A, fn := 2, d := .g, a := .g, b := .g, ord := some 5, sc := .withOrd }
  | .barrive _ => some { op := 0x7B, d := .g, a := .g, ord := some 5, sc := .withOrd }
  | .bwait _ => some { op := 0x7C, d := .g, a := .g, b := .g, ord := some 3, sc := .withOrd }
  | .tlbiVa _ => some { op := 0x7D, a := .g, b := .g, sc := .upTo 3 }
  | .tlbiAs _ => some { op := 0x7D, fn := 1, a := .g, sc := .upTo 3 }
  | .tlbiFrm _ => some { op := 0x7D, fn := 2, a := .g, sc := .only 3 }
  | .tlbiAll _ => some { op := 0x7D, fn := 3, sc := .upTo 3 }
  | .probeR _ => some { op := 0x7E, d := .g, a := .g, b := .g, la := true }
  | .probeW _ => some { op := 0x7E, fn := 1, d := .g, a := .g, b := .g, la := true }
  | .probeX _ => some { op := 0x7E, fn := 2, d := .g, a := .g, b := .g, la := true }
  | .stkGive _ => some { op := 0x7F, d := .g, a := .g, b := .g }
  | .stkStat _ => some { op := 0x7F, fn := 1, d := .g, a := .g }
  | .illegalInstruction _ _ => none
  | .instructionFetch => none
  | .issue _ => none
  | .longLatencyResult _ => none
  | .trapEntry _ => none
  | .dataError _ _ _ _ => none
  | .dumpWrite _ => none
  | .preemptRequest _ => none
  | .contextSave _ => none
  | .contextRestore _ _ => none
  | .readyQueueTake _ => none
  | .migrationForward _ => none
  | .yieldCountExpiry _ => none
  | .wfeWake _ => none
  | .wfeTimeout _ => none
  | .lsplitWrite _ => none
  | .vpoolWrite _ => none
  | .stashEntryWrite _ _ => none
  | .fsrAccess _ => none
  | .jsrAccess _ => none
  | .aspaceWrite _ => none
  | .pbWrite _ _ => none
  | .rankWrite _ => none
  | .rtnew _ => none
  | .capnew _ => none
  | .mkclr _ => none
  | .pfres _ => none
  | .dres _ => none
  | .prselWrite _ => none
  | .moncfgWrite _ _ => none
  | .registerWrite _ _ => none
  | .portWordSend _ _ => none
  | .portWordArrival _ _ => none
  | .slotQueueRefill _ => none
  | .mailboxActivation _ => none
  | .ringMonitorWake _ => none
  | .faultRecordPost _ _ => none
  | .copyCommand _ _ => none
  | .copyCompletion _ _ => none
  | .cpymReceiver _ _ _ => none
  | .copyPageResume _ _ => none
  | .jobAccept _ _ _ => none
  | .remoteJobArrival _ _ _ _ => none
  | .jobQuery _ _ => none
  | .kstepComplete _ => none
  | .jobKstep _ => none
  | .jobCompletion _ _ => none
  | .jobPriorityAgeing _ _ => none
  | .jobHold _ _ => none
  | .jobCancel _ _ => none
  | .tileAccessCommit _ => none
  | .halterAcquire _ => none
  | .tileAccessRollback _ => none
  | .streamFloat _ _ => none
  | .saddlebagLeave _ _ => none
  | .saddlebagArrive _ _ => none
  | .stationElementFetch _ _ => none
  | .coreElementFetch _ _ => none
  | .elementArrival _ _ => none
  | .aliasNote _ _ _ => none
  | .aliasRereadAnswer _ _ => none
  | .elementFault _ _ => none
  | .saddlebagHome _ _ => none
  | .streamSink _ _ => none
  | .indexedElementRequest _ _ => none
  | .demandPagingFault _ _ => none
  | .pageWalk _ _ _ _ => none
  | .codeStoreMark _ _ _ => none
  | .codeStoreMarkTimeout _ => none
  | .groomMarkWaitRecord _ _ _ => none
  | .hostCodeWrite _ _ => none
  | .dirGets _ _ _ => none
  | .dirGetx _ _ _ => none
  | .dirUpg _ _ _ => none
  | .dirPutx _ _ _ => none
  | .l3Read _ _ => none
  | .l3Ownership _ _ => none
  | .l3WriteBack _ _ => none
  | .backInvalidation _ => none
  | .sinvWriteThrough _ _ => none
  | .counterOp _ _ _ _ => none
  | .counterWaitComplete _ => none
  | .groupChange _ _ _ => none
  | .kernelLoad _ _ _ => none
  | .doorbellLaunch _ _ _ => none
  | .doorbellRecordTake _ _ => none
  | .doorbellDrain _ _ _ => none
  | .doorbellSelect _ _ _ => none
  | .doorbellResume _ _ _ => none
  | .featMaskCommit _ _ _ => none
  | .activationPlace _ _ _ => none
  | .gaitPeriodEnd _ _ => none
  | .gaitCoreRebind _ _ _ => none
  | .kernelRetire _ _ => none
  | .handoverMark _ => none
  | .handoverDrain _ => none
  | .handoverWriteback _ => none
  | .handoverShootdown _ => none
  | .handoverPortSwitch _ => none
  | .handoverFlip _ => none
  | .handoverComplete _ => none
  | .stackOffline _ => none
  | .stackScrub _ => none
  | .stackAssign _ _ _ => none
  | .islandHold _ => none
  | .sleepProxyInvalidate _ _ => none
  | .islandWake _ => none
  | .islandOff _ => none
  | .issueGating _ _ => none
  | .linkEnable _ => none
  | .linkTrained _ _ _ => none
  | .linkTrainingTimeout _ => none
  | .laneFailure _ _ _ => none
  | .linkRetrain _ => none
  | .linkDisable _ => none
  | .linkQuarantine _ _ => none
  | .flitReceive _ _ => none
  | .replayRateWindow _ => none
  | .tenantDrop _ _ => none
  | .peerWordReceive _ _ _ _ _ => none
  | .peerPortReplay _ _ => none
  | .stopMatch _ => none
  | .traceRecord _ _ _ _ => none
  | .replayArrival _ _ _ _ => none
  | .profileUpdate _ _ _ _ _ => none
  | .monitorSample _ _ _ => none
  | .debugToken _ => none
  | .quoteRequest _ _ => none
  | .packageReset _ => none
  | .supervisorStart _ => none
  | .partitionReset _ => none
  | .hostMemoryAccess _ _ _ => none
  | .faultQueueHeaderWrite _ _ _ => none
  | .baseIslandRateChange _ _ => none

/-- The operand fields of an instruction. -/
def Instr.ops : Instr → Ops
  | .nop o => o
  | .add o => o
  | .sub o => o
  | .mul o => o
  | .mulh o => o
  | .div o => o
  | .rem o => o
  | .and o => o
  | .or o => o
  | .xor o => o
  | .andn o => o
  | .orn o => o
  | .xnor o => o
  | .shl o => o
  | .shr o => o
  | .sar o => o
  | .rol o => o
  | .ror o => o
  | .min o => o
  | .max o => o
  | .cmp _ o => o
  | .sel o => o
  | .addi o => o
  | .andi o => o
  | .ori o => o
  | .xori o => o
  | .shli o => o
  | .shri o => o
  | .sari o => o
  | .roli o => o
  | .rori o => o
  | .li o => o
  | .lih o => o
  | .beq o => o
  | .bne o => o
  | .blt o => o
  | .bge o => o
  | .blo o => o
  | .bhs o => o
  | .jal o => o
  | .jalr o => o
  | .addpc o => o
  | .ld o => o
  | .st o => o
  | .amo _ o => o
  | .cas o => o
  | .famo o => o
  | .fence o => o
  | .pubc o => o
  | .vld o => o
  | .vst o => o
  | .vadd o => o
  | .vsub o => o
  | .vmul o => o
  | .vmulh o => o
  | .vdiv o => o
  | .vmin o => o
  | .vmax o => o
  | .vabs o => o
  | .vneg o => o
  | .vand o => o
  | .vor o => o
  | .vxor o => o
  | .vandn o => o
  | .vfma o => o
  | .vfms o => o
  | .vfnma o => o
  | .vfnms o => o
  | .vshl o => o
  | .vshr o => o
  | .vsar o => o
  | .vrol o => o
  | .vror o => o
  | .vcmp _ o => o
  | .vsel o => o
  | .vcvt o => o
  | .vdot o => o
  | .vred _ o => o
  | .vpermTbl o => o
  | .vpermBcast o => o
  | .vpermRev o => o
  | .vsf _ o => o
  | .vtopk o => o
  | .pset o => o
  | .pcnt o => o
  | .prd o => o
  | .pwr o => o
  | .pbrk o => o
  | .vmovCopy o => o
  | .vmovBcast o => o
  | .vmovGet o => o
  | .vmovSet o => o
  | .vldb o => o
  | .vstb o => o
  | .sdef o => o
  | .sgo o => o
  | .snext o => o
  | .snextVector o => o
  | .sput o => o
  | .sputVector o => o
  | .ssink o => o
  | .srecall o => o
  | .swaitHome o => o
  | .swaitEnd o => o
  | .sstat o => o
  | .sstatClr o => o
  | .shold o => o
  | .sholdOff o => o
  | .sfree o => o
  | .tld o => o
  | .tst o => o
  | .tzero o => o
  | .tfill o => o
  | .tcvt o => o
  | .tmov o => o
  | .mma o => o
  | .mmaWbuf o => o
  | .mjob o => o
  | .jpoll o => o
  | .jwait o => o
  | .wld o => o
  | .spawn o => o
  | .exit o => o
  | .exitDump o => o
  | .yield o => o
  | .yieldSwap o => o
  | .tid o => o
  | .tidLoc o => o
  | .trap o => o
  | .eret o => o
  | .csrr o => o
  | .csrw o => o
  | .wfe o => o
  | .bkpt o => o
  | .migr o => o
  | .sendm o => o
  | .mbind o => o
  | .mfree o => o
  | .rawaitProd o => o
  | .rawaitCons o => o
  | .rrelProd o => o
  | .rrelCons o => o
  | .cpy o => o
  | .cpym o => o
  | .launch o => o
  | .launchDrain o => o
  | .launchStat o => o
  | .launchAbort o => o
  | .emit o => o
  | .join o => o
  | .leave o => o
  | .ginfoHdr o => o
  | .ginfoMem o => o
  | .ginfoTid o => o
  | .cadd o => o
  | .caddSet o => o
  | .cwait o => o
  | .crd o => o
  | .bexpect o => o
  | .bexpectInit o => o
  | .bexpectGrp o => o
  | .barrive o => o
  | .bwait o => o
  | .tlbiVa o => o
  | .tlbiAs o => o
  | .tlbiFrm o => o
  | .tlbiAll o => o
  | .probeR o => o
  | .probeW o => o
  | .probeX o => o
  | .stkGive o => o
  | .stkStat o => o
  | .illegalInstruction _ _ => {}
  | .instructionFetch => {}
  | .issue _ => {}
  | .longLatencyResult _ => {}
  | .trapEntry _ => {}
  | .dataError _ _ _ _ => {}
  | .dumpWrite _ => {}
  | .preemptRequest _ => {}
  | .contextSave _ => {}
  | .contextRestore _ _ => {}
  | .readyQueueTake _ => {}
  | .migrationForward _ => {}
  | .yieldCountExpiry _ => {}
  | .wfeWake _ => {}
  | .wfeTimeout _ => {}
  | .lsplitWrite _ => {}
  | .vpoolWrite _ => {}
  | .stashEntryWrite _ _ => {}
  | .fsrAccess _ => {}
  | .jsrAccess _ => {}
  | .aspaceWrite _ => {}
  | .pbWrite _ _ => {}
  | .rankWrite _ => {}
  | .rtnew _ => {}
  | .capnew _ => {}
  | .mkclr _ => {}
  | .pfres _ => {}
  | .dres _ => {}
  | .prselWrite _ => {}
  | .moncfgWrite _ _ => {}
  | .registerWrite _ _ => {}
  | .portWordSend _ _ => {}
  | .portWordArrival _ _ => {}
  | .slotQueueRefill _ => {}
  | .mailboxActivation _ => {}
  | .ringMonitorWake _ => {}
  | .faultRecordPost _ _ => {}
  | .copyCommand _ _ => {}
  | .copyCompletion _ _ => {}
  | .cpymReceiver _ _ _ => {}
  | .copyPageResume _ _ => {}
  | .jobAccept _ _ _ => {}
  | .remoteJobArrival _ _ _ _ => {}
  | .jobQuery _ _ => {}
  | .kstepComplete _ => {}
  | .jobKstep _ => {}
  | .jobCompletion _ _ => {}
  | .jobPriorityAgeing _ _ => {}
  | .jobHold _ _ => {}
  | .jobCancel _ _ => {}
  | .tileAccessCommit _ => {}
  | .halterAcquire _ => {}
  | .tileAccessRollback _ => {}
  | .streamFloat _ _ => {}
  | .saddlebagLeave _ _ => {}
  | .saddlebagArrive _ _ => {}
  | .stationElementFetch _ _ => {}
  | .coreElementFetch _ _ => {}
  | .elementArrival _ _ => {}
  | .aliasNote _ _ _ => {}
  | .aliasRereadAnswer _ _ => {}
  | .elementFault _ _ => {}
  | .saddlebagHome _ _ => {}
  | .streamSink _ _ => {}
  | .indexedElementRequest _ _ => {}
  | .demandPagingFault _ _ => {}
  | .pageWalk _ _ _ _ => {}
  | .codeStoreMark _ _ _ => {}
  | .codeStoreMarkTimeout _ => {}
  | .groomMarkWaitRecord _ _ _ => {}
  | .hostCodeWrite _ _ => {}
  | .dirGets _ _ _ => {}
  | .dirGetx _ _ _ => {}
  | .dirUpg _ _ _ => {}
  | .dirPutx _ _ _ => {}
  | .l3Read _ _ => {}
  | .l3Ownership _ _ => {}
  | .l3WriteBack _ _ => {}
  | .backInvalidation _ => {}
  | .sinvWriteThrough _ _ => {}
  | .counterOp _ _ _ _ => {}
  | .counterWaitComplete _ => {}
  | .groupChange _ _ _ => {}
  | .kernelLoad _ _ _ => {}
  | .doorbellLaunch _ _ _ => {}
  | .doorbellRecordTake _ _ => {}
  | .doorbellDrain _ _ _ => {}
  | .doorbellSelect _ _ _ => {}
  | .doorbellResume _ _ _ => {}
  | .featMaskCommit _ _ _ => {}
  | .activationPlace _ _ _ => {}
  | .gaitPeriodEnd _ _ => {}
  | .gaitCoreRebind _ _ _ => {}
  | .kernelRetire _ _ => {}
  | .handoverMark _ => {}
  | .handoverDrain _ => {}
  | .handoverWriteback _ => {}
  | .handoverShootdown _ => {}
  | .handoverPortSwitch _ => {}
  | .handoverFlip _ => {}
  | .handoverComplete _ => {}
  | .stackOffline _ => {}
  | .stackScrub _ => {}
  | .stackAssign _ _ _ => {}
  | .islandHold _ => {}
  | .sleepProxyInvalidate _ _ => {}
  | .islandWake _ => {}
  | .islandOff _ => {}
  | .issueGating _ _ => {}
  | .linkEnable _ => {}
  | .linkTrained _ _ _ => {}
  | .linkTrainingTimeout _ => {}
  | .laneFailure _ _ _ => {}
  | .linkRetrain _ => {}
  | .linkDisable _ => {}
  | .linkQuarantine _ _ => {}
  | .flitReceive _ _ => {}
  | .replayRateWindow _ => {}
  | .tenantDrop _ _ => {}
  | .peerWordReceive _ _ _ _ _ => {}
  | .peerPortReplay _ _ => {}
  | .stopMatch _ => {}
  | .traceRecord _ _ _ _ => {}
  | .replayArrival _ _ _ _ => {}
  | .profileUpdate _ _ _ _ _ => {}
  | .monitorSample _ _ _ => {}
  | .debugToken _ => {}
  | .quoteRequest _ _ => {}
  | .packageReset _ => {}
  | .supervisorStart _ => {}
  | .partitionReset _ => {}
  | .hostMemoryAccess _ _ _ => {}
  | .faultQueueHeaderWrite _ _ _ => {}
  | .baseIslandRateChange _ _ => {}

/-- Is code `n` in the set of bits `s`? -/
def inSet {w : Nat} (s : BitVec w) (n : Nat) : Bool := s.getLsbD n

/-- Tags that name a floating format for the .sat rule (R114). -/
def Fmt.isFloat : Fmt → Bool | .fp32 | .fp16 | .bf16 | .e4m3 | .e5m2 => true | _ => false
/-- The two block formats (R31). -/
def Fmt.isBlock : Fmt → Bool | .mxfp4 | .ob4 => true | _ => false
/-- Integer tags 0x03 to 0x0A (R113). -/
def Fmt.isInt : Fmt → Bool | .i8 | .n8 | .i16 | .n16 | .i32 | .n32 | .i64 | .n64 => true | _ => false

/-- Cause 5 by an entry's own rule: .sat named together with a floating format (R114), .un with an integer format (R126),
.ua or .ub with the FP32 accumulator of VDOT's floating rows (R130). On VRED.and, .or and .xor with a raw, E2M1 or block format .sat is
accepted and changes nothing. DEDUCED: assumption 28. -/
def special5 : Instr → Bool
  | .vadd o | .vsub o | .vmul o | .vabs o | .vneg o | .vfma o | .vfms o | .vfnma o | .vfnms o | .vred _ o =>
    o.x.mod.getLsbD 1 && o.x.tag.isFloat
  | .vdot o => (o.x.tag.isFloat && o.x.mod.getLsbD 1) || (o.x.tag == .fp32 && (o.x.mod.getLsbD 2 || o.x.mod.getLsbD 3))
  | .vcmp k o => k == .un && o.x.tag.isInt
  | _ => false

/-- Cause 6 by an entry's own rule: the span of PSET (R116), the tags of an arithmetic VRED (R113), a block type above 3 (R129,
R218; assumption 8). DEDUCED: assumption 28. -/
def special6 : Instr → Bool
  | .pset o => o.b.toNat == 0 || 7 ≤ o.b.toNat
  | .vred k o => (k == .add || k == .min || k == .max) && !inSet intFloats o.x.tag.code.toNat
  | .vcvt o | .tcvt o => o.x.tag == .ob4 && 4 ≤ o.x.c.toNat
  | _ => false

/-- Cause 7 by an entry's own rule: the scale address of TLD and TST outside the block formats (R211), the block type
outside OB4 (R129, R218; assumption 8), bit 12 of a status register number (R247). DEDUCED: assumption 28. -/
def special7 : Instr → Bool
  | .tld o => !o.x.tag.isBlock && (o.x.c != 0 || o.x.pc)
  | .tst o => o.x.tag != .raw && !o.x.tag.isBlock && (o.x.c != 0 || o.x.pc)
  | .vcvt o | .tcvt o => o.x.tag != .ob4 && o.x.c != 0
  | .csrr o | .csrw o => o.imm.getLsbD 12
  | _ => false

/-- Does position value `n` (with its pq bit) break the register files of R52 and R53? -/
def outOfFile (u : Use) (n : Nat) (port : Bool) : Bool :=
  match u with
  | .g => port && 4 ≤ n
  | .vOrG => port && 4 ≤ n
  | .p | .t => 8 ≤ n
  | .s => 4 ≤ n
  | _ => false

/-- Is a nonzero value, or a pq bit, of an unused or non-g position present (R53, R60)? -/
def unusedPos (u : Use) (n : Nat) (port : Bool) : Bool :=
  match u with
  | .no => n != 0 || port
  | .g | .vOrG => false
  | _ => port

/-- Use of position b, where a literal replaces it (R51) and where .sa makes it a g register (R125). -/
def Row.useB (r : Row) (o : Ops) : Use :=
  if r.form == .A && o.len == .w3 then .no
  else if r.b == .vOrG then (if o.x.mod.getLsbD 1 then .g else .v) else r.b

/-- The condition of cause 5 (R60, R387). DEDUCED: assumption 8. DEDUCED: assumption 27. DEDUCED: assumption 28. -/
def cause5 (i : Instr) (r : Row) : Bool :=
  let o := i.ops
  (match r.m with | some s => !inSet s o.m.toNat | none => false) ||
  (match r.mod with | some s => (o.x.mod &&& ~~~s) != 0 | none => false) ||
  special5 i

/-- The condition of cause 6 (R60, R387), reserved codes of sc, rm and tag aside: those have no value in `Ops`. An instruction
that accepts .ri takes it with a nonzero tag field only (R112). DEDUCED: assumption 28. -/
def cause6 (i : Instr) (r : Row) : Bool :=
  let o := i.ops
  (match r.ord with | some s => !inSet s o.x.ord.code.toNat | none => false) ||
  (match r.sc with | .upTo n => n < o.x.sc.code.toNat | .only n => o.x.sc.code.toNat != n | _ => false) ||
  (match r.tag with | some s => !inSet s o.x.tag.code.toNat | none => false) ||
  (r.rm == .six && o.x.rm != .rne) ||
  outOfFile r.d o.d.toNat o.x.pd || outOfFile r.a o.a.toNat o.x.pa ||
  outOfFile (r.useB o) o.b.toNat o.x.pb || outOfFile r.c o.x.c.toNat o.x.pc ||
  (r.ri && o.x.ri && o.x.tag == .raw) || special6 i

/-- The condition of cause 7 (R60, R387): a nonzero value in a field that the instruction does not use or that the literal
replaces (R51), or a scope without an ordering. DEDUCED: assumption 8. DEDUCED: assumption 28. -/
def cause7 (i : Instr) (r : Row) : Bool :=
  let o := i.ops
  (r.m == none && o.m != 0) || (r.mod == none && o.x.mod != 0) || (r.ord == none && o.x.ord != .none) ||
  (r.sc == .no && o.x.sc != .c) || (r.sc == .withOrd && o.x.ord == .none && o.x.sc != .c) ||
  (r.tag == none && o.x.tag != .raw) || (r.rm == .seven && o.x.rm != .rne) || (!r.ri && o.x.ri) ||
  (!r.la && o.x.la != 0) ||
  unusedPos r.d o.d.toNat o.x.pd || unusedPos r.a o.a.toNat o.x.pa ||
  unusedPos (r.useB o) o.b.toNat o.x.pb || unusedPos r.c o.x.c.toNat o.x.pc ||
  (o.len == .w3 && r.form != .A && o.imm != 0) ||
  special7 i

/-- Width of the immediate field of a form (R48). -/
def Form.immBits : Form → Nat | .A => 0 | .I => 13 | .K => 8 | .M => 10 | .B => 13 | .J => 18
/-- Does a form have the fields fn, m, d, a, b (R48)? -/
def Form.hasFn : Form → Bool | .A | .K => true | _ => false
def Form.hasM : Form → Bool | .A | .M => true | _ => false
def Form.hasD : Form → Bool | .B => false | _ => true
def Form.hasA : Form → Bool | .J => false | _ => true
def Form.hasB : Form → Bool | .A | .B => true | _ => false

/-- Do the operand fields have the shape of their form and length (R48 to R51): a field that the words do not hold is 0? -/
def shapeOk (r : Row) (o : Ops) : Bool :=
  r.lens.contains o.len &&
  o.imm.toNat < 2 ^ r.form.immBits &&
  (r.form.hasM || o.m == 0) && (r.form.hasD || o.d == 0) && (r.form.hasA || o.a == 0) && (r.form.hasB || o.b == 0) &&
  (o.len != .w1 || o.x == {}) && (o.len == .w3 || o.lit == 0)

end Sys2Proof
end

