-- ==== Sys2Proof/WellFormed.lean ====
section
/-! DEFINITION. Which instruction terms are well formed: the ones that some words encode (R47 to R60). An event of the
device has no words; a term of one is well formed as it stands. -/

namespace Sys2Proof

/-- Well-formedness of an instruction: its fields have the shape of its form and length, and none of the conditions of R60
holds of them. -/
def wellFormed (i : Instr) : Bool :=
  match i.row with
  | none => true
  | some r => shapeOk r i.ops && !cause5 i r && !cause6 i r && !cause7 i r

/-- An instruction that words encode. -/
abbrev WellFormed (i : Instr) : Prop := wellFormed i = true

end Sys2Proof
end

