-- ==== Sys2Proof/Decode.lean ====
section
/-! DEFINITION. Decoding of instruction words (R47 to R60), total, with the illegal-instruction cause of every encoding
that is not an instruction, and the encoder written from the same tables. -/

namespace Sys2Proof

/-- Why a word is no instruction (R60, the causes in their order). -/
inductive Illegal where
  | lengthCode | crossesBlock | opcode | length | function | reserved | unusedField
deriving DecidableEq, Repr

/-- Cause code (R60). -/
def Illegal.code : Illegal → BitVec 8
  | .lengthCode => 1 | .crossesBlock => 2 | .opcode => 3 | .length => 4 | .function => 5 | .reserved => 6 | .unusedField => 7

/-- The lengths in which a primary opcode is legal (R58); none for an unassigned opcode. DEDUCED: assumption 28. -/
def opcodeLens (op : Nat) : List Len :=
  if op = 0x01 then [.w1, .w2] else
  if op = 0x02 then [.w1, .w2, .w3] else
  if op = 0x03 then [.w1, .w2, .w3] else
  if op = 0x04 then [.w1, .w2, .w3] else
  if op = 0x05 then [.w1, .w2, .w3] else
  if op = 0x06 then [.w1, .w2, .w3] else
  if op = 0x07 then [.w1, .w2] else
  if op = 0x08 then [.w1, .w2, .w3] else
  if op = 0x09 then [.w1, .w2, .w3] else
  if op = 0x0A then [.w2] else
  if op = 0x0B then [.w1, .w2, .w3] else
  if op = 0x0C then [.w1, .w2, .w3] else
  if op = 0x0D then [.w1, .w2, .w3] else
  if op = 0x0E then [.w1, .w2, .w3] else
  if op = 0x0F then [.w3] else
  if op = 0x10 then [.w1, .w2, .w3] else
  if op = 0x11 then [.w1, .w2, .w3] else
  if op = 0x12 then [.w1, .w2, .w3] else
  if op = 0x13 then [.w1, .w2, .w3] else
  if op = 0x14 then [.w1, .w2, .w3] else
  if op = 0x15 then [.w1, .w2, .w3] else
  if op = 0x16 then [.w1, .w2, .w3] else
  if op = 0x17 then [.w1, .w2] else
  if op = 0x18 then [.w1, .w2, .w3] else
  if op = 0x20 then [.w1, .w2, .w3] else
  if op = 0x21 then [.w1, .w2, .w3] else
  if op = 0x22 then [.w1, .w2] else
  if op = 0x23 then [.w2] else
  if op = 0x24 then [.w1, .w2] else
  if op = 0x25 then [.w1, .w2] else
  if op = 0x30 then [.w1, .w2, .w3] else
  if op = 0x31 then [.w1, .w2, .w3] else
  if op = 0x32 then [.w1, .w2] else
  if op = 0x33 then [.w2] else
  if op = 0x34 then [.w1, .w2] else
  if op = 0x35 then [.w1, .w2] else
  if op = 0x36 then [.w1, .w2] else
  if op = 0x37 then [.w2] else
  if op = 0x38 then [.w1, .w2] else
  if op = 0x39 then [.w1, .w2] else
  if op = 0x3A then [.w1, .w2] else
  if op = 0x3B then [.w1, .w2] else
  if op = 0x3C then [.w1, .w2] else
  if op = 0x3D then [.w1, .w2] else
  if op = 0x3E then [.w1, .w2, .w3] else
  if op = 0x3F then [.w1, .w2] else
  if op = 0x40 then [.w1, .w2] else
  if op = 0x41 then [.w1, .w2] else
  if op = 0x42 then [.w1, .w2] else
  if op = 0x43 then [.w1, .w2] else
  if op = 0x44 then [.w1, .w2] else
  if op = 0x45 then [.w1, .w2] else
  if op = 0x46 then [.w1, .w2] else
  if op = 0x47 then [.w1, .w2] else
  if op = 0x48 then [.w1, .w2] else
  if op = 0x49 then [.w1, .w2] else
  if op = 0x50 then [.w1, .w2] else
  if op = 0x51 then [.w1, .w2] else
  if op = 0x52 then [.w1, .w2] else
  if op = 0x53 then [.w1, .w2] else
  if op = 0x54 then [.w1, .w2] else
  if op = 0x55 then [.w1, .w2] else
  if op = 0x56 then [.w1, .w2] else
  if op = 0x57 then [.w1, .w2] else
  if op = 0x58 then [.w1, .w2] else
  if op = 0x59 then [.w1, .w2] else
  if op = 0x5A then [.w1, .w2] else
  if op = 0x60 then [.w1, .w2] else
  if op = 0x61 then [.w1, .w2] else
  if op = 0x62 then [.w1, .w2] else
  if op = 0x63 then [.w1, .w2] else
  if op = 0x64 then [.w1, .w2] else
  if op = 0x65 then [.w1, .w2] else
  if op = 0x66 then [.w1, .w2] else
  if op = 0x67 then [.w1, .w2] else
  if op = 0x68 then [.w1, .w2] else
  if op = 0x69 then [.w1, .w2] else
  if op = 0x6A then [.w1, .w2] else
  if op = 0x6B then [.w1, .w2] else
  if op = 0x6C then [.w1, .w2] else
  if op = 0x6D then [.w1, .w2] else
  if op = 0x6E then [.w1, .w2] else
  if op = 0x6F then [.w1, .w2] else
  if op = 0x70 then [.w1, .w2] else
  if op = 0x71 then [.w1, .w2] else
  if op = 0x72 then [.w1, .w2] else
  if op = 0x73 then [.w1, .w2] else
  if op = 0x74 then [.w1, .w2] else
  if op = 0x75 then [.w1, .w2] else
  if op = 0x76 then [.w1, .w2] else
  if op = 0x77 then [.w1, .w2, .w3] else
  if op = 0x78 then [.w1, .w2, .w3] else
  if op = 0x79 then [.w1, .w2] else
  if op = 0x7A then [.w1, .w2] else
  if op = 0x7B then [.w1, .w2] else
  if op = 0x7C then [.w1, .w2] else
  if op = 0x7D then [.w1, .w2] else
  if op = 0x7E then [.w1, .w2] else
  if op = 0x7F then [.w1, .w2] else
  []

/-- The form of an opcode's first word (R58). -/
def opcodeForm (op : Nat) : Form :=
  if op = 0x0B ∨ op = 0x0E ∨ op = 0x0F ∨ op = 0x17 ∨ op = 0x64 ∨ op = 0x66 ∨ op = 0x67 ∨ op = 0x69 then .I else
  if op = 0x0C ∨ op = 0x0D then .K else
  if op = 0x20 ∨ op = 0x21 then .M else
  if op = 0x10 ∨ op = 0x11 ∨ op = 0x12 ∨ op = 0x13 ∨ op = 0x14 ∨ op = 0x15 then .B else
  if op = 0x16 ∨ op = 0x18 then .J else
  .A

/-- The instruction that an opcode and a function code select (R58 and the entries); none where the entries define no such
function. -/
def select (op fn : Nat) (o : Ops) : Option Instr :=
  if op = 0x01 then if fn = 0 then some (.nop o) else none else
  if op = 0x02 then if fn = 0 then some (.add o) else none else
  if op = 0x03 then if fn = 0 then some (.sub o) else none else
  if op = 0x04 then if fn = 0 then some (.mul o) else if fn = 1 then some (.mulh o) else none else
  if op = 0x05 then if fn = 0 then some (.div o) else if fn = 1 then some (.rem o) else none else
  if op = 0x06 then if fn = 0 then some (.and o) else if fn = 1 then some (.or o) else if fn = 2 then some (.xor o) else if fn = 3 then some (.andn o) else if fn = 4 then some (.orn o) else if fn = 5 then some (.xnor o) else none else
  if op = 0x07 then if fn = 0 then some (.shl o) else if fn = 1 then some (.shr o) else if fn = 2 then some (.sar o) else if fn = 3 then some (.rol o) else if fn = 4 then some (.ror o) else none else
  if op = 0x08 then if fn = 0 then some (.min o) else if fn = 1 then some (.max o) else none else
  if op = 0x09 then (CmpCond.ofCode fn).map (fun k => .cmp k o) else
  if op = 0x0A then if fn = 0 then some (.sel o) else none else
  if op = 0x0B then some (.addi o) else
  if op = 0x0C then if fn = 0 then some (.andi o) else if fn = 1 then some (.ori o) else if fn = 2 then some (.xori o) else none else
  if op = 0x0D then if fn = 0 then some (.shli o) else if fn = 1 then some (.shri o) else if fn = 2 then some (.sari o) else if fn = 3 then some (.roli o) else if fn = 4 then some (.rori o) else none else
  if op = 0x0E then some (.li o) else
  if op = 0x0F then some (.lih o) else
  if op = 0x10 then some (.beq o) else
  if op = 0x11 then some (.bne o) else
  if op = 0x12 then some (.blt o) else
  if op = 0x13 then some (.bge o) else
  if op = 0x14 then some (.blo o) else
  if op = 0x15 then some (.bhs o) else
  if op = 0x16 then some (.jal o) else
  if op = 0x17 then some (.jalr o) else
  if op = 0x18 then some (.addpc o) else
  if op = 0x20 then some (.ld o) else
  if op = 0x21 then some (.st o) else
  if op = 0x22 then (AmoOp.ofCode fn).map (fun k => .amo k o) else
  if op = 0x23 then if fn = 0 then some (.cas o) else none else
  if op = 0x24 then if fn = 0 then some (.famo o) else none else
  if op = 0x25 then if fn = 0 then some (.fence o) else if fn = 1 then some (.pubc o) else none else
  if op = 0x30 then if fn = 0 then some (.vld o) else none else
  if op = 0x31 then if fn = 0 then some (.vst o) else none else
  if op = 0x32 then if fn = 0 then some (.vadd o) else if fn = 1 then some (.vsub o) else if fn = 2 then some (.vmul o) else if fn = 3 then some (.vmulh o) else if fn = 4 then some (.vdiv o) else if fn = 5 then some (.vmin o) else if fn = 6 then some (.vmax o) else if fn = 7 then some (.vabs o) else if fn = 8 then some (.vneg o) else if fn = 9 then some (.vand o) else if fn = 10 then some (.vor o) else if fn = 11 then some (.vxor o) else if fn = 12 then some (.vandn o) else none else
  if op = 0x33 then if fn = 0 then some (.vfma o) else if fn = 1 then some (.vfms o) else if fn = 2 then some (.vfnma o) else if fn = 3 then some (.vfnms o) else none else
  if op = 0x34 then if fn = 0 then some (.vshl o) else if fn = 1 then some (.vshr o) else if fn = 2 then some (.vsar o) else if fn = 3 then some (.vrol o) else if fn = 4 then some (.vror o) else none else
  if op = 0x35 then (VCmpCond.ofCode fn).map (fun k => .vcmp k o) else
  if op = 0x36 then if fn = 0 then some (.vsel o) else none else
  if op = 0x37 then if fn = 0 then some (.vcvt o) else none else
  if op = 0x38 then if fn = 0 then some (.vdot o) else none else
  if op = 0x39 then (VRedOp.ofCode fn).map (fun k => .vred k o) else
  if op = 0x3A then if fn = 0 then some (.vpermTbl o) else if fn = 1 then some (.vpermBcast o) else if fn = 2 then some (.vpermRev o) else none else
  if op = 0x3B then (SfFn.ofCode fn).map (fun k => .vsf k o) else
  if op = 0x3C then if fn = 0 then some (.vtopk o) else none else
  if op = 0x3D then if fn = 0 then some (.pset o) else if fn = 1 then some (.pcnt o) else if fn = 2 then some (.prd o) else if fn = 3 then some (.pwr o) else if fn = 4 then some (.pbrk o) else none else
  if op = 0x3E then if fn = 0 then some (.vmovCopy o) else if fn = 1 then some (.vmovBcast o) else if fn = 2 then some (.vmovGet o) else if fn = 3 then some (.vmovSet o) else none else
  if op = 0x3F then if fn = 0 then some (.vldb o) else if fn = 1 then some (.vstb o) else none else
  if op = 0x40 then if fn = 0 then some (.sdef o) else none else
  if op = 0x41 then if fn = 0 then some (.sgo o) else none else
  if op = 0x42 then if fn = 0 then some (.snext o) else if fn = 1 then some (.snextVector o) else none else
  if op = 0x43 then if fn = 0 then some (.sput o) else if fn = 1 then some (.sputVector o) else none else
  if op = 0x44 then if fn = 0 then some (.ssink o) else none else
  if op = 0x45 then if fn = 0 then some (.srecall o) else none else
  if op = 0x46 then if fn = 0 then some (.swaitHome o) else if fn = 1 then some (.swaitEnd o) else none else
  if op = 0x47 then if fn = 0 then some (.sstat o) else if fn = 1 then some (.sstatClr o) else none else
  if op = 0x48 then if fn = 0 then some (.shold o) else if fn = 1 then some (.sholdOff o) else none else
  if op = 0x49 then if fn = 0 then some (.sfree o) else none else
  if op = 0x50 then if fn = 0 then some (.tld o) else none else
  if op = 0x51 then if fn = 0 then some (.tst o) else none else
  if op = 0x52 then if fn = 0 then some (.tzero o) else none else
  if op = 0x53 then if fn = 0 then some (.tfill o) else none else
  if op = 0x54 then if fn = 0 then some (.tcvt o) else none else
  if op = 0x55 then if fn = 0 then some (.tmov o) else none else
  if op = 0x56 then if fn = 0 then some (.mma o) else if fn = 1 then some (.mmaWbuf o) else none else
  if op = 0x57 then if fn = 0 then some (.mjob o) else none else
  if op = 0x58 then if fn = 0 then some (.jpoll o) else none else
  if op = 0x59 then if fn = 0 then some (.jwait o) else none else
  if op = 0x5A then if fn = 0 then some (.wld o) else none else
  if op = 0x60 then if fn = 0 then some (.spawn o) else none else
  if op = 0x61 then if fn = 0 then some (.exit o) else if fn = 1 then some (.exitDump o) else none else
  if op = 0x62 then if fn = 0 then some (.yield o) else if fn = 1 then some (.yieldSwap o) else none else
  if op = 0x63 then if fn = 0 then some (.tid o) else if fn = 1 then some (.tidLoc o) else none else
  if op = 0x64 then some (.trap o) else
  if op = 0x65 then if fn = 0 then some (.eret o) else none else
  if op = 0x66 then some (.csrr o) else
  if op = 0x67 then some (.csrw o) else
  if op = 0x68 then if fn = 0 then some (.wfe o) else none else
  if op = 0x69 then some (.bkpt o) else
  if op = 0x6A then if fn = 0 then some (.migr o) else none else
  if op = 0x6B then if fn = 0 then some (.sendm o) else none else
  if op = 0x6C then if fn = 0 then some (.mbind o) else none else
  if op = 0x6D then if fn = 0 then some (.mfree o) else none else
  if op = 0x6E then if fn = 0 then some (.rawaitProd o) else if fn = 1 then some (.rawaitCons o) else none else
  if op = 0x6F then if fn = 0 then some (.rrelProd o) else if fn = 1 then some (.rrelCons o) else none else
  if op = 0x70 then if fn = 0 then some (.cpy o) else none else
  if op = 0x71 then if fn = 0 then some (.cpym o) else none else
  if op = 0x72 then if fn = 0 then some (.launch o) else if fn = 1 then some (.launchDrain o) else if fn = 2 then some (.launchStat o) else if fn = 3 then some (.launchAbort o) else none else
  if op = 0x73 then if fn = 0 then some (.emit o) else none else
  if op = 0x74 then if fn = 0 then some (.join o) else none else
  if op = 0x75 then if fn = 0 then some (.leave o) else none else
  if op = 0x76 then if fn = 0 then some (.ginfoHdr o) else if fn = 1 then some (.ginfoMem o) else if fn = 2 then some (.ginfoTid o) else none else
  if op = 0x77 then if fn = 0 then some (.cadd o) else if fn = 1 then some (.caddSet o) else none else
  if op = 0x78 then if fn = 0 then some (.cwait o) else none else
  if op = 0x79 then if fn = 0 then some (.crd o) else none else
  if op = 0x7A then if fn = 0 then some (.bexpect o) else if fn = 1 then some (.bexpectInit o) else if fn = 2 then some (.bexpectGrp o) else none else
  if op = 0x7B then if fn = 0 then some (.barrive o) else none else
  if op = 0x7C then if fn = 0 then some (.bwait o) else none else
  if op = 0x7D then if fn = 0 then some (.tlbiVa o) else if fn = 1 then some (.tlbiAs o) else if fn = 2 then some (.tlbiFrm o) else if fn = 3 then some (.tlbiAll o) else none else
  if op = 0x7E then if fn = 0 then some (.probeR o) else if fn = 1 then some (.probeW o) else if fn = 2 then some (.probeX o) else none else
  if op = 0x7F then if fn = 0 then some (.stkGive o) else if fn = 1 then some (.stkStat o) else none else
  none

/-- Fields of the first word, laid out by a form (R48). -/
def firstFields (f : Form) (w : BitVec 32) (len : Len) (x : Ext) (lit : BitVec 32) : Ops :=
  { len := len, x := x, lit := lit
    d := if f.hasD then w.extractLsb' 9 5 else 0
    a := if f.hasA then w.extractLsb' 14 5 else 0
    b := match f with | .A => w.extractLsb' 19 5 | .B => w.extractLsb' 9 5 | _ => 0
    m := match f with | .A => w.extractLsb' 24 3 | .M => w.extractLsb' 19 3 | _ => 0
    imm := match f with
      | .A => 0
      | .I | .B => (w.extractLsb' 19 13).setWidth 18
      | .K => (w.extractLsb' 19 8).setWidth 18
      | .M => (w.extractLsb' 22 10).setWidth 18
      | .J => w.extractLsb' 14 18 }

/-- Function code of the first word; forms without fn read 0. -/
def firstFn (f : Form) (w : BitVec 32) : Nat := if f.hasFn then (w.extractLsb' 27 5).toNat else 0

/-- The extension word (R49); none where sc, rm or tag holds a reserved code (R6, R34, R32). -/
def extOf (w : BitVec 32) : Option Ext :=
  match Fmt.ofCode (w.extractLsb' 14 5).toNat, Rm.ofCode (w.extractLsb' 11 3).toNat,
      Scope.ofCode (w.extractLsb' 8 3).toNat with
  | some tag, some rm, some sc =>
    some { mod := w.extractLsb' 27 5, ord := Order.ofCode (w.extractLsb' 25 2).toNat, ri := w.getLsbD 24
           c := w.extractLsb' 19 5, tag := tag, rm := rm, sc := sc, la := w.extractLsb' 4 4
           pc := w.getLsbD 3, pb := w.getLsbD 2, pa := w.getLsbD 1, pd := w.getLsbD 0 }
  | _, _, _ => none

/-- The extension word read with 0 in place of a reserved code, to look for a lower cause first (R60). -/
def extOrZero (w : BitVec 32) : Ext :=
  { mod := w.extractLsb' 27 5, ord := Order.ofCode (w.extractLsb' 25 2).toNat, ri := w.getLsbD 24
    c := w.extractLsb' 19 5, tag := (Fmt.ofCode (w.extractLsb' 14 5).toNat).getD .raw
    rm := (Rm.ofCode (w.extractLsb' 11 3).toNat).getD .rne, sc := (Scope.ofCode (w.extractLsb' 8 3).toNat).getD .c
    la := w.extractLsb' 4 4, pc := w.getLsbD 3, pb := w.getLsbD 2, pa := w.getLsbD 1, pd := w.getLsbD 0 }

/-- The lowest of the causes 5 to 7 that an instruction's fields raise (R60); `bad` says that sc, rm or tag held a reserved
code. DEDUCED: assumption 28. -/
def fieldCause (i : Instr) (bad : Bool) : Option Illegal :=
  match i.row with
  | none => some .opcode
  | some r =>
    if !r.lens.contains i.ops.len then some .length
    else if cause5 i r then some .function
    else if bad || cause6 i r then some .reserved
    else if cause7 i r then some .unusedField
    else none

/-- Decode the words of one instruction whose length code is `len`: `e` is the extension word (0 in the 32-bit form, R50),
`l` the literal (0 but in the 96-bit form). -/
def decodeLen (len : Len) (w e l : BitVec 32) : Except Illegal Instr :=
  let op := (w.extractLsb' 2 7).toNat
  if opcodeLens op = [] then .error .opcode
  else if !(opcodeLens op).contains len then .error .length
  else
    let f := opcodeForm op
    match select op (firstFn f w) (firstFields f w len (extOrZero e) l) with
    | none => .error .function
    | some i =>
      match fieldCause i (extOf e).isNone with
      | some c => .error c
      | none => .ok i

/-- Decode the words from the program counter to the end of its 32-byte block (R56): cause 2 where the instruction would pass
the block's end. -/
def decode : List (BitVec 32) → Except Illegal Instr
  | [] => .error .crossesBlock
  | w :: rest =>
    match Len.ofCode (w.extractLsb' 0 2).toNat with
    | none => .error .lengthCode
    | some .w1 => decodeLen .w1 w 0 0
    | some .w2 => match rest with | e :: _ => decodeLen .w2 w e 0 | _ => .error .crossesBlock
    | some .w3 => match rest with | e :: l :: _ => decodeLen .w3 w e l | _ => .error .crossesBlock

/-- The extension word of an instruction (R49). -/
def encodeExt (x : Ext) : BitVec 32 :=
  (x.mod ++ x.ord.code ++ BitVec.ofBool x.ri ++ x.c ++ x.tag.code ++ x.rm.code ++ x.sc.code ++ x.la ++
    BitVec.ofBool x.pc ++ BitVec.ofBool x.pb ++ BitVec.ofBool x.pa ++ BitVec.ofBool x.pd : BitVec 32)

/-- The first word of an instruction (R47, R48). -/
def encodeFirst (r : Row) (o : Ops) : BitVec 32 :=
  match r.form with
  | .A => (r.fn ++ o.m ++ o.b ++ o.a ++ o.d ++ r.op ++ o.len.code : BitVec 32)
  | .I => (o.imm.setWidth 13 ++ o.a ++ o.d ++ r.op ++ o.len.code : BitVec 32)
  | .K => (r.fn ++ o.imm.setWidth 8 ++ o.a ++ o.d ++ r.op ++ o.len.code : BitVec 32)
  | .M => (o.imm.setWidth 10 ++ o.m ++ o.a ++ o.d ++ r.op ++ o.len.code : BitVec 32)
  | .B => (o.imm.setWidth 13 ++ o.a ++ o.b ++ r.op ++ o.len.code : BitVec 32)
  | .J => (o.imm ++ o.d ++ r.op ++ o.len.code : BitVec 32)

/-- The words of an instruction, first word first (R47, R49, R51); an event has none. -/
def encode (i : Instr) : List (BitVec 32) :=
  match i.row with
  | none => []
  | some r =>
    match i.ops.len with
    | .w1 => [encodeFirst r i.ops]
    | .w2 => [encodeFirst r i.ops, encodeExt i.ops.x]
    | .w3 => [encodeFirst r i.ops, encodeExt i.ops.x, i.ops.lit]

/-- The first word of an instruction, as the trap record reports it (R238); 0 for an event. DEDUCED: assumption 41. -/
def Instr.word (i : Instr) : BitVec 32 := (encode i).headD 0

/-- The instruction that the decoder reads from `nbits` bits numbered as the opcode table numbers them, every higher bit
0. -/
def decodeTableWord (nbits w : Nat) : Option Instr :=
  let v : BitVec 96 := BitVec.ofNat 96 (w % 2 ^ nbits)
  match decode [v.extractLsb' 0 32, v.extractLsb' 32 32, v.extractLsb' 64 32] with
  | .ok i => some i
  | .error _ => none

end Sys2Proof
end

