-- ==== Sys2Proof/Machine/Smap.lean ====
section
/-! DEFINITION. Sparse maps in one canonical form: a list of key and value, the keys strictly rising, no value equal to what
an unlisted key reads as. Memory is such a map from addresses to bytes. -/

namespace Sys2Proof.Machine

/-- A sparse map: key and value, keys strictly rising. -/
abbrev Smap (α : Type) := List (Nat × α)

/-- The value at key `k`; an unlisted key reads as `d`. DESIGN CHOICE: assumption 3. -/
def smapGet {α : Type} (d : α) : Smap α → Nat → α
  | [], _ => d
  | (a, x) :: m, k => if k = a then x else if k < a then d else smapGet d m k

/-- Write `x` at key `k`; writing what an unlisted key reads as removes the entry. -/
def smapSet {α : Type} [DecidableEq α] (d : α) : Smap α → Nat → α → Smap α
  | [], k, x => if x = d then [] else [(k, x)]
  | (a, y) :: m, k, x =>
    if k < a then (if x = d then (a, y) :: m else (k, x) :: (a, y) :: m)
    else if k = a then (if x = d then m else (k, x) :: m)
    else (a, y) :: smapSet d m k x

/-- Change every listed value; a value that becomes what an unlisted key reads as is no longer listed. -/
def smapMap {α : Type} [DecidableEq α] (d : α) (m : Smap α) (f : Nat → α → α) : Smap α :=
  m.filterMap fun e => if f e.1 e.2 = d then none else some (e.1, f e.1 e.2)

/-- All keys of a map from `lo` up. -/
def smapFrom {α : Type} (lo : Nat) : Smap α → Bool
  | [] => true
  | (a, _) :: m => decide (lo ≤ a) && smapFrom (a + 1) m

/-- The canonical form: keys strictly rising, no value equal to `d`. -/
def smapWf {α : Type} [DecidableEq α] (d : α) (m : Smap α) : Bool :=
  smapFrom 0 m && m.all (fun e => decide (e.2 ≠ d))

/-- Memory: bytes by address; an unlisted byte reads 0 (R341, R378: a stack is scrubbed with zeros before use). -/
abbrev Memory := Smap Byte

/-- The byte at an address. DESIGN CHOICE: assumption 3. -/
def Memory.byte (m : Memory) (a : Nat) : Byte := smapGet 0 m a

/-- Write one byte. -/
def Memory.setByte (m : Memory) (a : Nat) (b : Byte) : Memory := smapSet 0 m a b

/-- Memory in canonical form. DESIGN CHOICE: assumption 3. -/
abbrev Memory.wf (m : Memory) : Prop := smapWf (0 : Byte) m = true

/-- The `n` bytes at `a`, little-endian (R1). -/
def Memory.read (m : Memory) (a : Nat) : Nat → Nat
  | 0 => 0
  | n + 1 => (m.byte a).toNat + 256 * Memory.read m (a + 1) n

/-- Write the low `n` bytes of `v` at `a`, little-endian (R1). -/
def Memory.write (m : Memory) (a : Nat) : Nat → Nat → Memory
  | 0, _ => m
  | n + 1, v => Memory.write (m.setByte a (BitVec.ofNat 8 v)) (a + 1) n (v / 256)

end Sys2Proof.Machine
end

