-- ==== Sys2Proof/Machine/State.lean ====
section
/-! DEFINITION. The state of the whole package as plain data: every piece of state the spec gives the machine (INVENTORY.md,
State), what a step can stop with, and the state after reset. -/

namespace Sys2Proof.Machine

open Sys2Proof

/-- Task identifier (R233). -/
abbrev Tid := BitVec 48

/-- A vector register (R108): bits, tag and scale field. -/
structure VReg where
  bits  : BitVec 128 := 0
  tag   : Fmt := .raw
  scale : BitVec 8 := 0
deriving DecidableEq, Repr

/-- A predicate (R109). -/
structure Pred where
  span  : BitVec 3 := 1
  ew    : BitVec 3 := 1
  count : BitVec 8 := 0
deriving DecidableEq, Repr

/-- State of a stream (R177). -/
inductive StreamState where
  | free | defined | running | floated | hopping | sinking | recalled | ended | faulted
deriving DecidableEq, Repr

/-- The fields of a stream descriptor (R179). `tbase` is also SCALE in bits 31:0 and BIAS in bits 63:32. -/
structure Desc where
  base : Word := 0
  stride0 : BitVec 32 := 0
  stride1 : BitVec 32 := 0
  stride2 : BitVec 32 := 0
  tstride : BitVec 32 := 0
  ext0 : BitVec 32 := 0
  ext1 : BitVec 32 := 0
  ext2 : BitVec 32 := 0
  ibound : BitVec 32 := 0
  fmt : Fmt := .raw
  mode : BitVec 3 := 0
  op : BitVec 3 := 0
  sink : BitVec 2 := 0
  sport : BitVec 2 := 0
  evmask : BitVec 4 := 0
  ifmt : BitVec 2 := 0
  tbase : Word := 0
  sinka : Word := 0
  evctr : Word := 0
deriving DecidableEq, Repr

/-- A request that the home of a line on a stack in transit holds (R345): the stack, and the clk of its arrival (R344). -/
structure Grant where
  stack : Nat
  since : Nat
deriving DecidableEq, Repr

/-- A stream register with the context bound to it (R176 to R193, R389). -/
structure Stream where
  state : StreamState := .free
  desc  : Desc := {}
  pin   : Bool := false
  acc   : Word := 0
  flg   : BitVec 5 := 0
  fidx  : Nat := 0
  didx  : Nat := 0
  hops  : BitVec 16 := 0
  epoch : BitVec 16 := 0
  ev    : BitVec 4 := 0
  hh    : Bool := false
  hp    : Bool := false
  fcode : BitVec 8 := 0
  /-- Faulting element and what EINFO0 reports of it (R192, R389). -/
  faultJ : Nat := 0
  faultInfo : Word := 0
  faultLevel : Nat := 0
  goPc  : Word := 0
  /-- Elements that lie in the core's buffer, and elements a station has sent that have not arrived (R187). -/
  buf   : List (Nat × Word) := []
  sent  : List (Nat × Word) := []
  /-- Pending indices of the alias guard (R190) and the re-read values on their way to the core. -/
  pend  : List Nat := []
  answers : List (Nat × Word) := []
  /-- The station that holds the saddlebag while it is away (R186): the die with a slice, or with 160 + 576 k + channel for a
  controller of stack k. -/
  station : Option (BitVec 2 × Nat) := none
  /-- The index an indexed stream has read for element `fidx` (R191), and those of the elements that it has fetched (R190). -/
  index : Option Word := none
  read  : List (Nat × Nat) := []
  /-- The next read is held at a home in transit (R187, R347). -/
  grant : Option Grant := none
  /-- The saddlebag is coming home to become recalled (R178, R200), or running (R203). -/
  recalling : Bool := false
  homing : Bool := false
  /-- The page of a faulted stream's FCODE 5 was resumed while its context lay saved (R192, R335). -/
  filled : Bool := false
  /-- The line a sink store waits to mark, the clk of its start, and whether the type 7 record has been posted (R328). -/
  markWait : Option (Nat × Nat × Bool) := none
  /-- The home port that holds the sink store in replay, its address, and the clk of its arrival (R374). -/
  traced : Option (BitVec 22 × Nat × Nat) := none
deriving DecidableEq, Repr

/-- A word in a receive queue, with what R370 and R371 measure. -/
structure QWord where
  word    : PortWord
  arrival : BitVec 32
deriving DecidableEq, Repr

/-- A port (R259): PBn without RCNT and the slot receive queue. -/
structure Port where
  pb    : Word := 0
  queue : List QWord := []
deriving DecidableEq, Repr

/-- Context state (R236). -/
inductive CState where
  | free | ready | running | waiting | parked | preempted | migrating | dumped
deriving DecidableEq, Repr

/-- What a waiting task waits for (R237). -/
inductive Wait where
  /-- nothing -/
  | none
  /-- a stall that ends by executing the instruction again -/
  | retry
  /-- YIELD with amount 0: the tasks that have not issued since (R250) -/
  | yield (peers : List Tid)
  /-- YIELD with an amount: the clk at which it ends (R250) -/
  | count (until_ : Nat)
  /-- WFE's monitor: line, clk of the arm, whether a write has performed since, and what it returns once it ended: 1 or 2,
  0 while it waits (R255) -/
  | wfe (line : Nat) (since : Nat) (fired : Bool) (result : BitVec 2)
  /-- a counter-wait slot: counter, target, the value that met it (R306, R314), and whether it is the PH of a record, which reads as
  0 while the record is not initialised (R317) -/
  | counter (pa : Nat) (target : Nat) (met : Option Word) (phase : Bool)
  /-- RAWAIT's monitor on a ring header (R269) -/
  | ring (line : Nat) (fired : Bool)
  /-- LAUNCH or EMIT on a full stage queue: kernel slot, stage, and whether an abort has ended it (R286, R292, R294) -/
  | post (kid : BitVec 6) (stage : Nat) (aborted : Bool)
  /-- a code store that waits for a mark: line, clk of its start (R328) -/
  | mark (line : Nat) (since : Nat)
  /-- a tile access that waits for a halter or has halters to take (R213) -/
  | halter
  /-- a frame in transit (R98): the stack, whether the request is held at its home to be served at the new one (R345), and the clk of
  its arrival -/
  | transit (stack : BitVec 4) (held : Bool) (since : Nat)
  /-- a walk that must set the code bit of an executable page before its translation is installed (R327) -/
  | walk (va : Word)
  /-- SENDM to a mailbox whose binding holds an activation in delivery (R266): the mailbox line's address -/
  | send (pa : Nat)
  /-- a word that a peer package has still to accept (R261): its sequence and its number -/
  | peer (key seq : Nat)
  /-- a store that its home port holds in replay (R374): the port, its address, and the clk of its arrival -/
  | traced (port : BitVec 22) (pa : Nat) (since : Nat)
deriving DecidableEq, Repr

/-- A physical tile (R207): 32 rows of 64 bytes, tag, 128 scale bytes, a has-special bit per row, and whether a TLD has it
loading (R209). -/
structure Tile where
  rows    : BitVec 16384 := 0
  scales  : BitVec 1024 := 0
  special : BitVec 32 := 0
  tag     : Fmt := .raw
  loading : Bool := false
deriving DecidableEq, Repr

/-- Where the halter of a line is held (R213): its home L2 slice on the issuing die, that slice and the home L3 slice, or the home
channel controller. -/
inductive HalterLevel where | slice | l3 | channel
deriving DecidableEq, Repr

/-- A halter (R168, R213): the line, its holder, where it is held, and the issuing die. -/
structure Halter where
  line  : Nat
  tid   : Tid
  level : HalterLevel
  die   : Nat
deriving DecidableEq, Repr

/-- A tile access that takes its halters one at a time (R213, R214): the physical tile, the lines it needs in address order with the
level of each halter, and how many it holds, the addresses of its rows and scales (virtual and physical), whether it stores, what it stores, and the tag it
loads. -/
structure TileAccess where
  pt    : Nat
  lines : List (Nat × HalterLevel)
  held  : Nat
  rows  : List (Word × Nat)
  scs   : List (Word × Nat)
  store : Bool
  copy  : Tile
  tag   : Fmt
  o     : Ops
deriving DecidableEq, Repr

/-- What a dumped context reports (R246). -/
structure Dump where
  ecause : Word
  epc    : Word
  info0  : Word := 0
  info1  : Word := 0
  info2  : Word := 0
deriving DecidableEq, Repr

/-- A send to a peer package that has not completed (R261, R363): the PC of its instruction and the one that follows it, the sequence
key and the number of the word. -/
structure PeerSend where
  pc   : Word
  next : Word
  key : Nat
  seq : Nat
deriving DecidableEq, Repr

/-- A task and its context (R232 to R239). -/
structure Task where
  tid    : Tid := 0
  cstate : CState := .free
  core   : Nat := 0
  slot   : Nat := 0
  parked : Bool := false
  wait   : Wait := .none
  pc     : Word := 0
  g      : Vector Word 32 := Vector.replicate 32 0
  v      : Vector VReg 32 := Vector.replicate 32 {}
  p      : Vector Pred 8 := Vector.replicate 8 {}
  streams : Vector Stream 4 := Vector.replicate 4 {}
  ports  : Vector Port 4 := Vector.replicate 4 {}
  stat   : Word := 0
  epc    : Word := 0
  ecause : Word := 0
  einfo0 : Word := 0
  einfo1 : Word := 0
  einfo2 : Word := 0
  estat  : Word := 0
  tvec   : Word := 0
  ctxa   : Word := 0
  fsr    : Word := 0
  seed   : Word := 0
  twin   : Word := 0
  jsr    : Word := 0
  rank   : Word := 0
  kcur   : Word := 0
  aspace : Word := 0
  /-- Group memberships: physical addresses of the records (R297). -/
  groups : List Nat := []
  tile   : Option TileAccess := none
  /-- The tiles of a saved context (R234), in window order. -/
  saved  : Option (List (Nat × Tile)) := none
  dump   : Option Dump := none
  secondary : List Dump := []
  faults : Nat := 0
  /-- A data error that the task takes at its next boundary (R240): the address, the PC and the physical address of the access that
  met it. -/
  dataErr : Option (Word × Word × Nat) := none
  /-- The word that the instruction at the PC has left with a peer package, not yet seen to be accepted (R261, R363). -/
  peerSent : Option PeerSend := none
  /-- How many of its stores the instruction at a PC has made, where the next one waits (R373, R374). -/
  stored : Option (Word × Nat) := none
  /-- The restore target in header word 3 as the save wrote it (R234). -/
  target : Nat := 0
  /-- The core whose interface still holds words for the task's rank since its last halt (R244). -/
  oldCore : Option Nat := none
  /-- For an activation: whether a message started it; stamp of its placement, transit and queue wait of its message, and its sender (R370, R371). -/
  message : Bool := false
  placed : BitVec 32 := 0
  transit : BitVec 32 := 0
  qwait : BitVec 32 := 0
  /-- A stop entry that matched at the boundary the task stands at (R369). -/
  stopDue : Option Nat := none
  /-- The entry of a debug stop whose record is posted when the save is complete (R369). -/
  stopRec : Option Nat := none
  sender : BitVec 20 := 0xFFFFF
deriving DecidableEq, Repr

/-- State of a job (R225). -/
inductive JobState where | queued | running | overtaken | held | done | faulted | refused | unknown
deriving DecidableEq, Repr

/-- A job queue entry (R225 to R231). -/
structure Job where
  gen    : BitVec 16 := 0
  taken  : Bool := false
  record : BitVec 512 := 0
  mma    : Bool := false
  tid    : Tid := 0
  tenant : BitVec 12 := 0
  aspace : Word := 0
  core   : Nat := 0
  state  : JobState := .done
  epri   : BitVec 2 := 0
  kdone  : Nat := 0
  flg    : BitVec 6 := 0
  code   : BitVec 8 := 0
  order  : Nat := 0
  since  : Nat := 0
  sup    : Bool := false
  /-- An MMA's second D tile and its accumulator format. -/
  d1     : BitVec 6 := 0
  acc    : Fmt := .raw
  /-- The halted task for which the job is held (R231). -/
  holder : Option Tid := none
  /-- Its completion add is held at a home in transit (R307, R345). -/
  grant  : Option Grant := none
deriving DecidableEq, Repr

/-- One unit of the weight buffer (R221, R222). -/
structure WUnit where
  bytes : BitVec 256 := 0
  mask  : BitVec 64 := 0
deriving DecidableEq, Repr

/-- A window that a copy command writes (R273, R275): the receiver it goes to (0 for CPY), its slot's address, the position it has
come to, the bits written of it, what it waits for, and whether it is parked on a page (R274, R335). -/
structure CopyWindow where
  rcv    : Nat
  base   : Word
  row    : Nat := 0
  col    : Nat := 0
  bits   : Nat := 0
  parked : Option Nat := none
  filled : Bool := false
  /-- The line a code store waits to mark, the clk of its start, and whether the type 7 record has been posted (R328). -/
  markWait : Option (Nat × Nat × Bool) := none
  /-- The ring whose slot it has begun to fill: the physical address of the header (R275). -/
  ring : Option Nat := none
  /-- Its access is held at a home in transit (R345). -/
  grant : Option Grant := none
deriving DecidableEq, Repr

/-- A store to an aligned 8-byte word that no fence orders before a copy unit's reads (R166): the word's key, what it held before the
store, the number of the store, one for all the words of a store that is seen whole (R167), and whether no read sees the store, because
it came while the command's window was half read. -/
structure OldWord where
  key   : Nat
  value : Nat
  event : Nat
  late  : Bool := false
deriving DecidableEq, Repr

/-- A command in a copy unit's queue (R272 to R275). -/
structure Copy where
  desc   : BitVec 1024
  descVa : Word
  multi  : Bool
  tid    : Tid
  aspace : Word
  core   : Nat
  sup    : Bool
  /-- Receivers' header addresses (CPYM). -/
  rcv    : List Word
  /-- Codes of the receivers (R274). -/
  codes  : List (BitVec 8)
  /-- Receivers already served, and the windows being written, one for each receiver (R275). -/
  served : List Nat := []
  windows : List CopyWindow := []
  flags  : BitVec 6 := 0
  code   : BitVec 8 := 0
  /-- Bytes written by the windows that are over. -/
  bytes  : Nat := 0
  bodyDone : Bool := false
  added  : Bool := false
  /-- The line that a completion store waits to mark (R327, R328). -/
  markWait : Option (Nat × Nat × Bool) := none
  /-- The clk at which the command joined the queue (R372). -/
  since  : Nat := 0
  /-- Stores of which its reads may not see the effect, and the free value that says which (R166). -/
  old    : List OldWord := []
  seed   : Nat := 0
  /-- Its completion add or store is held at a home in transit (R307, R345). -/
  grant  : Option Grant := none
deriving DecidableEq, Repr

/-- A monitor of a cluster (R372). DESIGN CHOICE: assumption 2. -/
structure Monitor where
  cfg   : Word := 0
  least : Word := 0
  most  : Word := 0
  count : Word := 0
  bins  : List Word := List.replicate 16 0
deriving DecidableEq, Repr

/-- State of a cluster. -/
structure Cluster where
  vpool : Word := 0
  tiles : Smap Tile := []
  wbuf  : Smap WUnit := []
  jobs  : Smap Job := []
  accepted : Nat := 0
  capt  : Vector Word 16 := Vector.replicate 16 0
  copies : List Copy := []
  monsel : Word := 0
  monitors : Vector Monitor 4 := Vector.replicate 4 {}
deriving DecidableEq, Repr

/-- Where a held line lies (R139, R142, R143). -/
inductive LinePlace where | l1 | stash | pool
deriving DecidableEq, Repr

/-- A line held by a core (R139, R142, R147). DESIGN CHOICE: assumption 5. -/
structure Line where
  place : LinePlace := .l1
  dirty : Bool := false
  excl  : Bool := false
  sinv  : Bool := false
  stamp : BitVec 16 := 0
  /-- Where it lies in the local SRAM: 256 line indices to the segment (R136, R155). -/
  index : BitVec 12 := 0
  /-- The stash entry that maps it (R142). -/
  entry : BitVec 3 := 0
  present : Bool := false
deriving DecidableEq, Repr

/-- An entry of the profile table (R371). -/
structure Prof where
  key : BitVec 20
  words : List Word
deriving DecidableEq, Repr

/-- State of a core. DESIGN CHOICE: assumption 2. -/
structure Core where
  lsplit : Word := 4
  sgen   : BitVec 16 := 0
  stash  : Vector Word 8 := Vector.replicate 8 0
  stashSpace : Vector Word 8 := Vector.replicate 8 0
  lines  : Smap Line := []
  last   : Nat := 3
  ready  : List Tid := []
  inbound : List QWord := []
  ranks  : List Word := []
  /-- Words held for a rank that is migrating (R244), in order of arrival. -/
  held   : List QWord := []
  /-- Where the ranks (tenant, then rank) of tasks that have left this core went (R244). -/
  redirect : List (BitVec 32 × Nat) := []
  prsel  : Word := 0
  profile : List Prof := []
  /-- Messages consumed whose profile update is due: sender, transit, queue wait, run time (R370, R371). -/
  consumed : List (BitVec 20 × BitVec 32 × BitVec 32 × BitVec 32) := []
  sleepLog : List (BitVec 12) := []
  sleepCount : Nat := 0
  gate   : Nat := 0
deriving DecidableEq, Repr

/-- State of an entry of a home L2 directory (R150). -/
inductive DirEntry where | inv | shp (sharers : List (BitVec 12)) | shc (coarse : BitVec 72) | own (core : BitVec 12)
deriving DecidableEq, Repr

/-- State that the home L3 keeps for one die's L2 (R152). -/
inductive L3State where | M | O | E | S | I
deriving DecidableEq, Repr

/-- State of a stack (R341). -/
inductive StackSt where | owned | handing | offline | scrubbing
deriving DecidableEq, Repr

/-- A stack (R341 to R351). -/
structure Stack where
  state  : StackSt := .owned
  owner  : BitVec 2 := 0
  reach  : BitVec 4 := 0
  step   : BitVec 3 := 0
  hcnt   : BitVec 32 := 0
  tenant : Option (BitVec 12) := none
  counter : Nat := 0
deriving DecidableEq, Repr

/-- State of a link (R357). -/
inductive LinkSt where | down | training | up | degraded | quarantined
deriving DecidableEq, Repr

/-- A link (R356 to R359). DESIGN CHOICE: assumption 2. -/
structure Link where
  state : LinkSt := .down
  lanes : BitVec 5 := 0
  half  : Bool := false
  cause : BitVec 4 := 0
  retry : BitVec 32 := 0
  /-- The clks of the replays of the last 1 ms, the latest first, and failed replays of the flit in flight (R356, R358). -/
  replays : List Nat := []
  failed : Nat := 0
  /-- The clk at which training began (R358). -/
  since : Nat := 0
deriving DecidableEq, Repr

/-- State of an island (R21). -/
inductive IslandSt where | run | hold | off
deriving DecidableEq, Repr

/-- An island (R21): a compute island's state, the clk at which its clocks stopped last, a base island's rate. -/
structure Island where
  state : IslandSt := .hold
  half  : Bool := false
  stopped : Nat := 0
deriving DecidableEq, Repr

/-- One cached translation (R324): where it is cached (a core's micro-TLB, or 10000 + cluster for a cluster TLB), ASID, first
address of the leaf, size of the leaf in address bits, the leaf entry, its physical frame address and the code bit.
DESIGN CHOICE: assumption 6. -/
structure TlbEntry where
  place : Nat
  asid  : BitVec 12
  va    : Nat
  bits  : Nat
  leaf  : Word
  pa    : Nat
deriving DecidableEq, Repr

/-- A table entry that a die's walker pool caches (R324): the die, the ASID, the level, the address bits that index it and those
above, and the entry. DESIGN CHOICE: assumption 6. -/
structure WalkEntry where
  die   : Nat
  asid  : BitVec 12
  level : Nat
  tag   : Nat
  entry : Word
deriving DecidableEq, Repr

/-- A code-dirty mark (R328): the line, the task it names (none: the record was lost, R331) and the die in whose home L2 slice it stands
(none: only in the home L3 slice, to which a hand-over has moved it, R344). -/
structure Mark where
  line : Nat
  tid  : Option Tid
  die  : Option (BitVec 2)
deriving DecidableEq, Repr

/-- A group table entry (R296): the record's physical address, header and members (TID and rank word). -/
structure Group where
  pa : Nat
  ver : BitVec 24
  maxm : BitVec 16
  members : List (Tid × Word)
deriving DecidableEq, Repr

/-- Who waits its turn at a home: a task, a virtual function's doorbell, or a copy command (R266, R280). -/
inductive Waiter where
  | task (tid : Tid)
  | vf (v : Nat)
  | copy (cluster : Nat) (tid : Tid) (desc : Word)
deriving DecidableEq, Repr

/-- A triggering store whose activation is in delivery (R266): the line, the stamp and arrival of its message, and its sender
(none: an engine's completion, R370). -/
structure Trigger where
  line    : BitVec 512
  stamp   : BitVec 32
  arrival : BitVec 32
  src     : Option (BitVec 20)
deriving DecidableEq, Repr

/-- A mailbox binding (R265, R266): line address, address as bound, index in its slice, the spawn record, the binder and its
address space, and the trigger in delivery. -/
structure Mailbox where
  pa : Nat
  va : Word
  index : BitVec 3
  record : BitVec 512
  tid : Tid
  tvec : Word
  aspace : Word
  pending : List Trigger := []
  /-- Triggers that wait at the home, in order of arrival (R266): of a task, or of a copy command. -/
  waiters : List Waiter := []
deriving DecidableEq, Repr

/-- State of a kernel slot (R279). -/
inductive KState where | none | loaded | running | draining | retired | faulted
deriving DecidableEq, Repr

/-- An entry of a stage queue: its 64 bytes, its stamp and its sender (R278, R370). -/
structure Entry where
  bytes : BitVec 512
  stamp : BitVec 32
  src   : BitVec 20
deriving DecidableEq, Repr

/-- A stage of a loaded kernel (R277, R283, R285). -/
structure Stage where
  handler : Word
  cap : Nat
  min : Nat
  max : Nat
  twin : Word
  queue : List Entry := []
  cores : List Nat := []
  /-- Cores that will bind to the stage once their slots hold no activation of the old one, with the number of that (R285). -/
  joining : List (Nat × Nat) := []
  idleCount : Nat := 0
  /-- Did an entry stay in the queue, or a post stall, during the period (R285)? -/
  busy : Bool := false
  bp : Bool := false
  lastCore : Option Nat := none
  /-- Posts that wait for room, in order of arrival (R280, R294): of a task, or of a virtual function's doorbell. -/
  waiters : List Waiter := []
deriving DecidableEq, Repr

/-- A kernel slot (R277 to R286). -/
structure Kernel where
  state : KState := .none
  gen : BitVec 16 := 0
  decl : Word := 0
  stages : List Stage := []
  tvec : Word := 0
  fstop : Bool := false
  ctxpool : Word := 0
  nctx : Nat := 0
  entry : Nat := 0
  aspace : Word := 0
  die : BitVec 2 := 0
  loadedAt : Nat := 0
  /-- Number of the gait period whose end comes next (R285). -/
  period : Nat := 0
deriving DecidableEq, Repr

/-- An outstanding demand-paging record (R333): its number, ASID and page, the park set with the task that faulted. -/
structure Paging where
  seq : BitVec 32
  asid : BitVec 12
  page : Nat
  tids : List Tid
deriving DecidableEq, Repr

/-- A written dump whose type 6 record has not been consumed (R246): SEQ of the record, its dump slot, and its position in the
ring once it is there. -/
structure DumpRef where
  seq  : BitVec 32
  slot : Nat
  pos  : Option Nat := none
deriving DecidableEq, Repr

/-- A virtual function (R270, R282, R333, R365). -/
structure VFunc where
  /-- Launch records, and the resumes of parked groups, each with the clk of its arrival (R282, R335). -/
  launches : List (BitVec 1024 × Nat) := []
  resumes : List (BitVec 32 × Nat) := []
  /-- The kernel slot and generation whose full entry queue the oldest record waits for (R282). -/
  stalled : Option (BitVec 6 × BitVec 16) := none
  selected : Word := 0
  header : Word := 0
  buffer : List (BitVec 512) := []
  seq : BitVec 32 := 1
  paging : List Paging := []
  dumps : List DumpRef := []
deriving DecidableEq, Repr

/-- A paddock (R366, R378 to R386). -/
structure Paddock where
  cfg : PaddockConfig
  started : Bool := false
  verified : Bool := false
  feat : BitVec 128 := 0
  committed : Bool := false
  nextTid : BitVec 36 := 1
  kernels : Vector Kernel 64 := Vector.replicate 64 {}
  vfs : Smap VFunc := []
  dumpQueue : List Tid := []
  dumpSlot : Nat := 0
  dbgctl : Word := 0
  dbgq : Word := 0
  dbgBuf : List (BitVec 512) := []
  /-- Tasks that a sideband debugger has named in DRES and whose restore has still to wait (R369). -/
  restores : List Tid := []
  stops : Vector Word 8 := Vector.replicate 8 0
  stopa : Vector Word 8 := Vector.replicate 8 0
deriving DecidableEq, Repr

/-- What a home port keeps for trace and replay (R373, R374): its sequence number and the arrivals it holds. -/
structure TracePort where
  seq : BitVec 32 := 0
  held : List (BitVec 14 × Word) := []
deriving DecidableEq, Repr

/-- What a sending core keeps for a peer package (R363): the next number and the words not acknowledged. -/
structure PeerTx where
  next : Nat := 0
  unacked : List (Nat × PortWord) := []
  /-- The port on which the words that are not acknowledged went out (R362, R363). -/
  port : Option Nat := none
deriving DecidableEq, Repr

/-- An add that an agent has sent to a counter of a stack in transit (R188, R307): who translates, the address, or the physical address
of an add that no task's agent makes, the task and the amount, the stream whose event it counts, and where it is held. -/
structure HeldAdd where
  core   : Nat
  aspace : Word
  sup    : Bool
  va     : Word
  pa     : Option Nat := none
  tid    : Tid
  amount : Nat
  stream : Option (BitVec 2) := none
  grant  : Option Grant := none
deriving DecidableEq, Repr

/-- A host access that waits for a frame in transit or for a halter (R98, R154, R168): the address, the bytes to read, what it
writes, and the clk of its arrival. -/
structure HostAccess where
  pa    : Nat
  n     : Nat
  write : Option (List Byte)
  since : Nat := 0
deriving DecidableEq, Repr

/-- A farrier core (R19): what its SRAM holds of the monitor image (R378). DESIGN CHOICE: assumption 2. -/
structure Farrier where
  sram : List Byte := []
deriving DecidableEq, Repr

/-- Boot (R375 to R378, R384). DESIGN CHOICE: assumption 2. -/
structure Boot where
  step : Nat := 0
  failed : Option (BitVec 4 × BitVec 8) := none
  bootn : Word := 0
  lcs : BitVec 2 := 0
  features : List (Word × BitVec 16) := []
  log : List (BitVec 512) := []
  offer : BitVec 128 := 0
deriving DecidableEq, Repr

/-- The package. -/
structure State where
  /-- GCLK (R368). -/
  clk : Nat
  boot : Boot
  /-- DRAM (R10, R144), by physical address. -/
  mem : Memory
  /-- Scratch (R136, R138): byte x of core c at key 262,144 c + x. -/
  scratch : Memory
  cores : Smap Core
  clusters : Smap Cluster
  dramStacks : Vector Stack 16
  links : Vector Link 17
  islands : Smap Island
  routes : Smap (BitVec 12)
  peerTx : Smap PeerTx
  peerRx : Smap Nat
  routerBits : Smap (BitVec 4096)
  /-- Messages dropped at routers and reported to the farrier monitor (R367). -/
  drops : List (Nat × BitVec 12)
  /-- Tenants admitted on each Ouvmer Link port (R367). -/
  admitted : Smap (BitVec 4096)
  /-- Farrier core 4b + f (R15, R19). -/
  farrier : Vector Farrier 16
  /-- Home L2 directory entries, key 2^34 × die + line (R150). -/
  dir : Smap DirEntry
  /-- Home L3 states, key 4 × line + die (R152). -/
  l3 : Smap L3State
  /-- Lines whose dirty data a die's L2 itself holds (R145, R152), with the keys of `dir`. -/
  l2dirty : Smap Bool
  /-- Lines of memory with poisoned check bits (R348). -/
  poison : Smap Bool
  /-- The halters that are held (R168, R213). -/
  halters : List Halter
  /-- Code bits by frame number (R327). -/
  codeBits : Smap Bool
  marks : List Mark
  tlb : List TlbEntry
  /-- Table entries in the caches of the walker pools (R324). -/
  walkCache : List WalkEntry
  groupTab : List Group
  mailboxes : List Mailbox
  tracePorts : Smap TracePort
  /-- Adds and host accesses that wait, in order of arrival (R98, R188, R307). -/
  heldAdds : List HeldAdd
  /-- What words held before a task's stores that no release of the task has ordered yet (R166). -/
  recent : List (Tid × OldWord)
  hostHeld : List HostAccess
  paddocks : List Paddock
  /-- The task that executes. -/
  task : Task
  /-- Every other task that has a context. -/
  others : List Task
  /-- Which rows of the table the agents outside the executing task perform next (DESIGN CHOICE, assumption 1). -/
  agenda : List Instr
  /-- Issue grants: instructions that the task in `task` issues before the agenda goes on (DESIGN CHOICE, assumption 1). -/
  grant : Nat
  /-- Counter of free values (DESIGN CHOICE, assumption 4). -/
  free : Nat
  /-- What the last host read or quote returned. -/
  out : List Byte
deriving DecidableEq, Repr

/-- Why the machine stops with a fault. -/
inductive Fault where
  /-- A host access or a resumed command names a physical address beyond the 512 GiB of the package (R144): raised by the
  events that take a physical address; safe, the spec gives no such address. -/
  | outsideMemory (pa : Nat)
deriving DecidableEq, Repr

/-- Why an instruction has no meaning. -/
inductive Refusal where
  /-- The instruction has no meaning in the model yet: raised by its arm of exec; safe. -/
  | notModelled (mnemonic : String)
deriving DecidableEq, Repr

/-- Stack s at reset (R11): owned by die e of its edge, reach of the owner only. DESIGN CHOICE: assumption 2. -/
def Stack.reset (s : Nat) : Stack := { owner := BitVec.ofNat 2 (s / 4), reach := 1#4 <<< (s / 4) }

/-- Link n at reset (R358): 0 to 4 train, 5 to 16 are down. DESIGN CHOICE: assumption 2. -/
def Link.reset (n : Nat) : Link := { state := if n ≤ 4 then .training else .down }

/-- The machine right after reset: nothing has booted, no paddock and no task exists, memory lists nothing.
DESIGN CHOICE: assumption 2. -/
def State.reset : State where
  clk := 0
  boot := {}
  mem := []
  scratch := []
  cores := []
  clusters := []
  dramStacks := Vector.ofFn fun i => Stack.reset i.val
  links := Vector.ofFn fun i => Link.reset i.val
  islands := []
  routes := []
  peerTx := []
  peerRx := []
  routerBits := []
  drops := []
  admitted := []
  farrier := Vector.replicate 16 {}
  dir := []
  l3 := []
  l2dirty := []
  poison := []
  halters := []
  codeBits := []
  marks := []
  tlb := []
  walkCache := []
  groupTab := []
  mailboxes := []
  tracePorts := []
  heldAdds := []
  recent := []
  hostHeld := []
  paddocks := []
  task := {}
  others := []
  agenda := []
  grant := 0
  free := 0
  out := []

end Sys2Proof.Machine
end

