-- ==== Sys2Proof/Machine/Ops.lean ====
section
/-! DEFINITION. The named operations over the state: tasks, cores, clusters and paddocks, registers and ports, fault records,
taking an exception and returning from one, ports and their words. -/

namespace Sys2Proof.Machine

open Sys2Proof

/-- What can keep an instruction from completing: a trap, a stall, a demand-paging fault (address, level of the entry, and
the code of R334), an operand record with an uncorrectable error at a virtual and physical address (R240), or a stall in the middle of
its stores, with the state that those before it leave (R373, R374). -/
inductive Stop where
  | trap (t : Trap)
  | wait (w : Wait)
  | park (va : Word) (level : Nat) (code : BitVec 8)
  | data (va : Word) (pa : Nat)
  | partly (s : State) (w : Wait)
deriving DecidableEq, Repr

/-- Numbers of an illegal-operand, privilege and resource-exhaustion trap (R238). -/
def Stop.illegalOperand : Stop := .trap { kind := 2 }
def Stop.privilege : Stop := .trap { kind := 9 }
def Stop.resource (code : BitVec 8) : Stop := .trap { kind := 10, detail := code }
/-- The alignment fault at an address. -/
def Stop.alignment (va : Word) : Stop := .trap { kind := 4, info0 := va }
/-- The permission fault at an address. -/
def Stop.permission (va : Word) : Stop := .trap { kind := 6, info0 := va }
/-- The format fault (R112, R238): operand position, expected tag, tag found, place in the group. A place above 7 runs on into bits 27 and 28.
DEDUCED: assumption 27. -/
def Stop.format (pos : Nat) (expected found : Fmt) (place : Nat) : Stop :=
  .trap { kind := 3, info0 := BitVec.ofNat 64 (pos + 256 * expected.code.toNat + 65536 * found.code.toNat + 16777216 * place) }

/-! ### Places -/

/-- Die, cluster and tenant of a task. -/
def Task.die (t : Task) : Nat := t.core / 2304
def Task.cluster (t : Task) : Nat := t.core / 8
def Task.tenant (t : Task) : BitVec 12 := t.tid.extractLsb' 36 12
/-- Is the task a supervisor task (R239)? -/
def Task.sup (t : Task) : Bool := t.stat.getLsbD 0
/-- Does a task lie in a slot of its core (R236): running, waiting, parked, or halted with its save still to come? -/
def Task.inSlot (t : Task) : Bool :=
  t.cstate == .running || t.cstate == .waiting || t.cstate == .parked || (t.cstate == .migrating && t.saved.isNone)
/-- Does the stream unit serve a task: it lies in a slot, and no halt has stopped it (R193)? -/
def Task.streaming (t : Task) : Bool := t.cstate == .running || t.cstate == .waiting || t.cstate == .parked
/-- Does a task hold what a core keeps for it, its rank and its stream contexts (R176, R390)? -/
def Task.resident (t : Task) : Bool := t.inSlot || t.cstate == .dumped

def State.core (s : State) (c : Nat) : Core := smapGet {} s.cores c
def State.setCore (s : State) (c : Nat) (x : Core) : State := { s with cores := smapSet {} s.cores c x }
def State.cluster (s : State) (c : Nat) : Cluster := smapGet {} s.clusters c
def State.setCluster (s : State) (c : Nat) (x : Cluster) : State := { s with clusters := smapSet {} s.clusters c x }
def State.setTask (s : State) (t : Task) : State := { s with task := t }

/-- Every task that has a context. -/
def State.tasks (s : State) : List Task := s.task :: s.others
def State.findTask (s : State) (tid : Tid) : Option Task := s.tasks.find? (·.tid == tid)
/-- Change the task with a TID. -/
def State.modTask (s : State) (tid : Tid) (f : Task → Task) : State :=
  { s with task := if s.task.tid == tid then f s.task else s.task
           others := s.others.map fun t => if t.tid == tid then f t else t }
/-- Change every task but the executing one. -/
def State.mapOthers (s : State) (f : Task → Task) : State := { s with others := s.others.map f }

/-- The number at one of the places of a list, which the free value of the state chooses; `none` of an empty list.
DESIGN CHOICE: assumption 19. -/
def State.choose (s : State) (l : List Nat) : Option Nat := l[Config.freeChoice s.free % l.length]?
/-- Perform an operation on the executing task for another task, and make the executing task the executing one again. -/
def State.asTask (s : State) (tid : Tid) (f : State → State) : State :=
  if s.task.tid = tid then f s
  else match s.others.find? (·.tid == tid) with
  | none => s
  | some t =>
    let s1 := f { s with task := t, others := s.others.map fun u => if u.tid = tid then s.task else u }
    match s1.others.find? (·.tid == s.task.tid) with
    | none => s1
    | some u => { s1 with task := u, others := s1.others.map fun x => if x.tid = s.task.tid then s1.task else x }

def State.paddock (s : State) (tenant : BitVec 12) : Option Paddock := s.paddocks.find? (·.cfg.tenant == tenant)
def State.modPaddock (s : State) (tenant : BitVec 12) (f : Paddock → Paddock) : State :=
  { s with paddocks := s.paddocks.map fun p => if p.cfg.tenant == tenant then f p else p }
def Paddock.vf (p : Paddock) (v : Nat) : VFunc := smapGet {} p.vfs v
def State.modVf (s : State) (tenant : BitVec 12) (v : Nat) (f : VFunc → VFunc) : State :=
  s.modPaddock tenant fun p => { p with vfs := smapSet {} p.vfs v (f (p.vf v)) }
/-- The lowest set bit of a 64-bit mask below `n`. DEDUCED: assumption 9. -/
def lowestBit (w : BitVec 64) : Nat → Nat
  | 0 => 0
  | n + 1 => let k := lowestBit w n; if k < n then k else if w.getLsbD n then n else n + 1
/-- The virtual function that owns the paddock: the lowest-numbered one it holds (R270; assumption 9). -/
def Paddock.ownVf (p : Paddock) : Nat := lowestBit p.cfg.vfs 64
/-- Does the paddock hold a cluster (R366)? The rectangle of each die: x0, y0, x1, y1, one byte each. -/
def Paddock.hasCluster (p : Paddock) (c : Nat) : Bool :=
  let x := c % 288 % 24
  let y := c % 288 / 24
  c < 1152 && p.cfg.rects.any fun r =>
    r.1.toNat == c / 288 && (r.2.extractLsb' 0 8).toNat ≤ x && (r.2.extractLsb' 8 8).toNat ≤ y &&
      x ≤ (r.2.extractLsb' 16 8).toNat && y ≤ (r.2.extractLsb' 24 8).toNat
/-- The core on which a paddock's supervisor starts (R381). -/
def Paddock.firstCore (p : Paddock) : Option Nat := ((List.range 1152).find? p.hasCluster).map (8 * ·)
/-- The clusters of the kernel core pool (R380): the supervisor's is never one of them (R381). -/
def Paddock.poolClusters (p : Paddock) : List Nat :=
  (List.range 1152).filter fun c => p.cfg.pool.contains c && p.firstCore != some (8 * c)
def Paddock.hasCore (p : Paddock) (c : Nat) : Bool := c < 9216 && p.hasCluster (c / 8)
/-- Accepted features (R383). DEDUCED: assumption 49. -/
def State.feat (s : State) (tenant : BitVec 12) (bit : Nat) : Bool :=
  match s.paddock tenant with | some p => p.feat.getLsbD bit | none => false

/-! ### Registers -/

/-- Read a scalar register; g0 reads as zero (R8). -/
def Task.rd (t : Task) (n : BitVec 5) : Word := if n = 0 then 0 else t.g[n.toNat]'(n.isLt)
/-- Write a scalar register; a write of g0 is discarded (R8). -/
def Task.wr (t : Task) (n : BitVec 5) (x : Word) : Task :=
  if n = 0 then t else { t with g := t.g.set n.toNat x n.isLt }
/-- Vector register `n` of the file. -/
def Task.rdV (t : Task) (n : Nat) : VReg := if h : n < 32 then t.v[n] else {}
def Task.wrV (t : Task) (n : Nat) (x : VReg) : Task := if h : n < 32 then { t with v := t.v.set n x h } else t
/-- A predicate; p0 is always all true (R8, R109). -/
def Task.rdP (t : Task) (n : BitVec 3) : Pred := if n = 0 then { span := 1, ew := 0, count := 32 } else t.p[n.toNat]'(n.isLt)
def Task.wrP (t : Task) (n : BitVec 3) (x : Pred) : Task := if n = 0 then t else { t with p := t.p.set n.toNat x n.isLt }
def Task.stream (t : Task) (n : BitVec 2) : Stream := t.streams[n.toNat]'(n.isLt)
def Task.setStream (t : Task) (n : BitVec 2) (x : Stream) : Task := { t with streams := t.streams.set n.toNat x n.isLt }
def Task.port (t : Task) (n : BitVec 2) : Port := t.ports[n.toNat]'(n.isLt)
def Task.setPort (t : Task) (n : BitVec 2) (x : Port) : Task := { t with ports := t.ports.set n.toNat x n.isLt }

def State.wr (s : State) (n : BitVec 5) (x : Word) : State := s.setTask (s.task.wr n x)
/-- Advance the program counter by an instruction's length; the instruction has completed, so nothing is waited for. -/
def State.advance (s : State) (o : Ops) : State :=
  s.setTask { s.task with pc := s.task.pc + BitVec.ofNat 64 o.len.bytes, wait := .none }
/-- Merge flags into FSR by OR (R39, R40). -/
def State.flag (s : State) (f : BitVec 6) : State := s.setTask { s.task with fsr := s.task.fsr ||| f.setWidth 64 }

/-! ### Fault records and dumps -/

/-- Layout of a fault record (R334). -/
def recordBits (ty code : BitVec 8) (tenant : BitVec 12) (seq : BitVec 32) (tid : Tid) (addr pc aux0 aux1 : Word) : BitVec 512 :=
  (0#128 ++ aux1 ++ aux0 ++ pc ++ addr ++ 0#16 ++ tid ++ seq ++ 0#4 ++ tenant ++ code ++ ty : BitVec 512)

/-- Post a fault record to a virtual function's buffer (R270, R334). A unit posts only where `State.postRoom` holds, and else
stalls. SEQ wraps past 0. DEDUCED: assumption 68. -/
def VFunc.post (v : VFunc) (ty code : BitVec 8) (tenant : BitVec 12) (tid : Tid) (addr pc aux0 aux1 : Word) : VFunc :=
  { v with buffer := v.buffer ++ [recordBits ty code tenant v.seq tid addr pc aux0 aux1]
           seq := if v.seq + 1 = 0 then 1 else v.seq + 1 }
def State.post (s : State) (tenant : BitVec 12) (vf : Nat) (ty code : BitVec 8) (tid : Tid) (addr pc aux0 aux1 : Word) : State :=
  s.modVf tenant vf fun v => v.post ty code tenant tid addr pc aux0 aux1
/-- Post to the virtual function that owns the paddock. DEDUCED: assumption 9. DEDUCED: assumption 68. -/
def State.postOwn (s : State) (tenant : BitVec 12) (ty code : BitVec 8) (tid : Tid) (addr pc aux0 aux1 : Word) : State :=
  match s.paddock tenant with
  | none => s
  | some p => s.post tenant p.ownVf ty code tid addr pc aux0 aux1

/-- Has the buffer of the paddock's own virtual function room for a record (R270)? A unit that would post one stalls until it
has. DEDUCED: assumption 68. -/
def State.postRoom (s : State) (tenant : BitVec 12) : Bool :=
  match s.paddock tenant with | some p => decide ((p.vf p.ownVf).buffer.length < 64) | none => true

/-- End a post that waits on a kernel: the task runs on and its instruction completes with status 3 (R286, R293). -/
def Task.abortPost (kid : BitVec 6) (tenant : BitVec 12) (t : Task) : Task :=
  match t.wait with
  | .post k g _ =>
    if k = kid ∧ t.tenant = tenant ∧ t.cstate = .waiting then { t with cstate := .running, wait := .post k g true } else t
  | _ => t
/-- A kernel becomes faulted: its queued entries are discarded (R279). -/
def Kernel.fault (k : Kernel) : Kernel :=
  { k with state := .faulted, stages := k.stages.map fun g => { g with queue := [] } }
def Paddock.kernel (p : Paddock) (kid : BitVec 6) : Kernel := p.kernels[kid.toNat]'(kid.isLt)
def Paddock.setKernel (p : Paddock) (kid : BitVec 6) (k : Kernel) : Paddock :=
  { p with kernels := p.kernels.set kid.toNat k kid.isLt }
/-- Fault a kernel and end the posts that wait on it. -/
def State.faultKernel (s : State) (tenant : BitVec 12) (kid : BitVec 6) : State :=
  let s := s.modPaddock tenant fun p => p.setKernel kid (p.kernel kid).fault
  { s with task := s.task.abortPost kid tenant, others := s.others.map (Task.abortPost kid tenant) }

/-! ### Tiles and jobs of a task -/

/-- The physical tile of a window entry (R208). -/
def Task.window (t : Task) (j : Nat) : Option Nat :=
  if t.twin.getLsbD (8 * j + 7) then some (t.twin.extractLsb' (8 * j) 6).toNat else none

/-- Is a job accepted and not yet done, faulted or cancelled (R225)? -/
def Job.live (j : Job) : Bool := j.taken && (j.state == .queued || j.state == .running || j.state == .overtaken || j.state == .held)

/-- Fields of a job record (R227). -/
def Job.ctl (j : Job) : Word := j.record.extractLsb' 0 64
def Job.field (j : Job) (lo n : Nat) : Nat := (j.record.extractLsb' lo n).toNat
def Job.mt (j : Job) : Nat := j.field 88 2 + 1
def Job.nt (j : Job) : Nat := j.field 90 2 + 1
def Job.kc (j : Job) : Nat := j.field 96 8 + 1
def Job.bsrc (j : Job) : Bool := j.record.getLsbD 111
/-- The tiles A(i, k), B(k, j) and D(i, j), and the unit of panel (k, j) (R227). -/
def Job.tileA (j : Job) (i k : Nat) : Nat := j.field 64 6 + i * j.kc + k
def Job.tileB (j : Job) (k n : Nat) : Nat := j.field 72 6 + k * j.nt + n
def Job.tileD (j : Job) (i n : Nat) : Nat × Nat :=
  if j.mma then (j.field 80 6, j.d1.toNat) else (j.field 80 6 + 2 * (i * j.nt + n), j.field 80 6 + 2 * (i * j.nt + n) + 1)
def Job.panel (j : Job) (k n : Nat) : Nat := j.field 128 15 + (k * j.nt + n) * j.field 144 16
/-- Tiles a job reads and tiles it writes. -/
def Job.reads (j : Job) : List Nat :=
  ((List.range j.mt).flatMap fun i => (List.range j.kc).map (j.tileA i)) ++
  (if j.bsrc then [] else (List.range j.kc).flatMap fun k => (List.range j.nt).map (j.tileB k))
def Job.writes (j : Job) : List Nat :=
  (List.range j.mt).flatMap fun i => (List.range j.nt).flatMap fun n => [(j.tileD i n).1, (j.tileD i n).2]

/-- The entries of a cluster's queue (R225). -/
def Cluster.job (c : Cluster) (e : Nat) : Job := smapGet {} c.jobs e
def Cluster.live (c : Cluster) : List Job := ((List.range 32).map c.job).filter Job.live

def Cluster.setJob (c : Cluster) (e : Nat) (j : Job) : Cluster := { c with jobs := smapSet {} c.jobs e j }

/-- Does a job reserve a tile of a task's window? -/
def Job.touches (j : Job) (t : Task) : Bool :=
  j.live && (List.range 8).any fun n => match t.window n with | some p => j.reads.contains p || j.writes.contains p | none => false

def State.tileAt (s : State) (c p : Nat) : Tile := smapGet {} (s.cluster c).tiles p
def State.setTile (s : State) (c p : Nat) (x : Tile) : State :=
  let k := s.cluster c
  s.setCluster c { k with tiles := smapSet {} k.tiles p x }
/-- Drop a task's halters. -/
def State.dropHalters (s : State) (tid : Tid) : State := { s with halters := s.halters.filter (·.tid != tid) }
/-- A task's uncommitted tile access lets go of its halters and of the tile it loads (R214). -/
def State.letGo (s : State) (t : Task) : State :=
  let s1 := s.dropHalters t.tid
  match t.tile with
  | none => s1
  | some a => if a.store then s1 else s1.setTile t.cluster a.pt { s1.tileAt t.cluster a.pt with loading := false }

/-- Hold a job for a halted task: it stands at a k-step boundary. -/
def Cluster.hold (c : Cluster) (e : Nat) (tid : Tid) : Cluster :=
  let j := c.job e
  if j.live && decide (j.kdone < j.kc) && j.state != .held then c.setJob e { j with state := .held, holder := some tid } else c
/-- Hold every job of a halted task's window. -/
def State.holdJobs (s : State) (t : Task) : State :=
  let c := s.cluster t.cluster
  s.setCluster t.cluster ((List.range 32).foldl (fun c e => if (c.job e).touches t then c.hold e t.tid else c) c)
/-- The tiles of a task's window, in window order (R234). -/
def State.snapTiles (s : State) (t : Task) : List (Nat × Tile) :=
  (List.range 8).filterMap fun n => (t.window n).map fun p => (n, smapGet {} (s.cluster t.cluster).tiles p)

/-- A fatal fault or EXIT.dump moves a context to dumped (R241, R246); a further fatal fault of a dumped context is a
secondary entry. An uncommitted tile access rolls back (R214), jobs on its window's tiles are held and the tiles kept as they stand
(R231, R246), and no ready queue names it any more. With FSTOP set, a fatal fault
of an activation makes its kernel faulted (R284). DEDUCED: assumption 22. DEDUCED: assumption 39. -/
def State.dumpTask (s : State) (tid : Tid) (d : Dump) (fatal : Bool) : State :=
  match s.findTask tid with
  | none => s
  | some t =>
    if t.cstate = .dumped then
      s.modTask tid fun t => { t with secondary := if t.secondary.length < 7 then t.secondary ++ [d] else t.secondary
                                      faults := t.faults + 1 }
    else
      let s := s.letGo t
      let s := if t.saved.isSome then s else s.holdJobs t
      let tiles := if t.saved.isSome then t.saved else some (s.snapTiles t)
      let s : State := { s with cores := smapMap {} s.cores fun _ c => { c with ready := c.ready.filter (· != tid) } }
      let s := s.modTask tid fun t =>
        { t with cstate := .dumped, wait := .none, tile := none, dump := some d, saved := tiles,
                 target := if t.saved.isSome then t.target else t.core }
      let s := s.modPaddock t.tenant fun p => { p with dumpQueue := p.dumpQueue ++ [tid] }
      let kid := t.kcur.extractLsb' 0 6
      match s.paddock t.tenant with
      | some p =>
        if fatal && t.kcur != 0 && (p.kernel kid).fstop && (p.kernel kid).gen == t.kcur.extractLsb' 48 16 &&
            ((p.kernel kid).state == .running || (p.kernel kid).state == .draining || (p.kernel kid).state == .loaded) then
          s.faultKernel t.tenant kid
        else s
      | none => s

/-! ### Exceptions -/

/-- ECAUSE of a trap (R238). -/
def trapCause (t : Trap) : Word := (0#48 ++ t.detail ++ BitVec.ofBool t.imp ++ 0#1 ++ t.kind : BitVec 64)

/-- The registers that a trap saves into (R239): STAT, the PC and the cause. An instruction that traps begins anew. -/
def Task.saveTrap (k : Task) (t : Trap) (epc : Word) : Task :=
  { k with estat := k.stat, epc := epc, ecause := trapCause t, einfo0 := t.info0, einfo1 := t.info1, einfo2 := t.info2, stored := none }
/-- What the record of a fatal trap holds (R246). -/
def trapDump (t : Trap) (epc : Word) : Dump :=
  { ecause := trapCause t, epc := epc, info0 := t.info0, info1 := t.info1, info2 := t.info2 }
/-- Take a trap of the executing task with EPC = `epc` (R239): save STAT, PC and the cause; the fault is fatal without a valid
vector or inside a handler (R241), else become supervisor with TRP set and go to the vector. DEDUCED: assumption 39. -/
def State.trapAt (s : State) (t : Trap) (epc : Word) : State :=
  let k := s.task
  let epc := epc &&& ~~~(3 : Word)
  if k.tvec.getLsbD 0 = false ∨ k.stat.getLsbD 1 = true then (s.setTask (k.saveTrap t epc)).dumpTask k.tid (trapDump t epc) true
  else
    s.setTask { k.saveTrap t epc with stat := k.stat ||| 3, pc := k.tvec &&& ~~~(3 : Word), cstate := .running, wait := .none }

/-- A release of the executing task has performed its stores for the copy unit of its cluster, whose place is the cluster (R157): at
scope .k or wider it orders them before every later kick (R162). DESIGN CHOICE: assumption 5. -/
def State.order (s : State) (sc : Scope) : State :=
  if sc = .c then s else { s with recent := s.recent.filter (·.1 != s.task.tid) }

/-- Take a trap at the executing instruction. -/
def State.trap (s : State) (t : Trap) : State := s.trapAt t s.task.pc

/-- Return from an exception (R253). -/
def State.eret (s : State) : State := s.setTask { s.task with pc := s.task.epc, stat := s.task.estat }

/-- EINFO0 of the kinds that report the first word (R238). DEDUCED: assumption 41. -/
def trapWord (t : Trap) (w : BitVec 32) : Trap :=
  if t.kind = 1 ∨ t.kind = 2 ∨ t.kind = 9 ∨ t.kind = 10 then { t with info0 := w.setWidth 64 } else t

/-- Only a supervisor task goes on (R247, R336). -/
def State.needSup (s : State) : Except Stop Unit := if s.task.sup then .ok () else .error Stop.privilege

/-- A check that ends the instruction where it fails. -/
def need (c : Bool) (e : Stop) : Except Stop Unit := if c then .ok () else .error e

/-! ### Ports (R53, R259 to R262) -/

/-- The k-th word of a port's slot queue; the instruction stalls while it has not arrived (R53, R262). -/
def State.portWord (s : State) (q : BitVec 5) (k : Nat) : Except Stop Word :=
  match (s.task.port (q.setWidth 2)).queue[k]? with
  | some w => .ok w.word.value
  | none => .error (.wait .retry)

/-- Source positions in the order a, b, c (R53): the value of a g register, or the next word of a port. -/
def State.srcA (s : State) (o : Ops) : Except Stop Word :=
  if o.x.pa then s.portWord o.a 0 else .ok (s.task.rd o.a)
def State.srcB (s : State) (o : Ops) : Except Stop Word :=
  if o.x.pb then s.portWord o.b (if o.x.pa && o.a == o.b then 1 else 0) else .ok (s.task.rd o.b)
def State.srcC (s : State) (o : Ops) : Except Stop Word :=
  if o.x.pc then
    s.portWord o.x.c ((if o.x.pa && o.a == o.x.c then 1 else 0) + (if o.x.pb && o.b == o.x.c then 1 else 0))
  else .ok (s.task.rd o.x.c)
/-- The d position where it is a source (ST): after a (R53, R112). -/
def State.srcD (s : State) (o : Ops) : Except Stop Word :=
  if o.x.pd then s.portWord o.d (if o.x.pa && o.a == o.d then 1 else 0) else .ok (s.task.rd o.d)

/-- GCLK[31:0] (R370). -/
def State.stamp (s : State) : BitVec 32 := BitVec.ofNat 32 s.clk
/-- An interval of R370; 2^31 or more counts as 2^31 − 1. -/
def interval (a b : BitVec 32) : BitVec 32 := if 2 ^ 31 ≤ (b - a).toNat then 0x7FFFFFFF else b - a

/-- Consume one word from the head of a port; the core's profile learns of it (R371). -/
def State.pop (s : State) (q : BitVec 5) : State :=
  let n := q.setWidth 2
  match (s.task.port n).queue with
  | [] => s
  | w :: rest =>
    let c := s.core s.task.core
    (s.setCore s.task.core { c with consumed := c.consumed ++
      [(w.word.src, interval w.word.stamp w.arrival, interval w.arrival s.stamp, 0)] }).setTask
        (s.task.setPort n { (s.task.port n) with queue := rest })

/-- Consume the words that the source positions a, b and c took. -/
def State.take (s : State) (o : Ops) : State :=
  let s := if o.x.pa then s.pop o.a else s
  let s := if o.x.pb then s.pop o.b else s
  if o.x.pc then s.pop o.x.c else s

/-- Fields of a rank-table entry (R260). -/
def rankOf (e : Word) : BitVec 20 := e.extractLsb' 28 20
def rankTenant (e : Word) : BitVec 12 := e.extractLsb' 48 12
def rankPkg (e : Word) : BitVec 12 := e.extractLsb' 16 12
def rankCore (e : Word) : Nat := (e.extractLsb' 2 14).toNat

/-- The rank a task sends as: its rank, or 0xF_FFFF for none (R371). -/
def Task.srcRank (t : Task) : BitVec 20 := if t.rank.getLsbD 63 then t.rank.extractLsb' 0 20 else 0xFFFFF

/-- Does a task hold a rank on a core? -/
def Task.holds (t : Task) (core : Nat) (tenant : BitVec 12) (rank : BitVec 20) : Bool :=
  t.resident && t.core == core && t.tenant == tenant && t.rank.getLsbD 63 && t.rank.extractLsb' 0 20 == rank

/-- Is the rank of a task in transit at a core: the task has been halted there to migrate, or has left it and its words have not
been forwarded yet (R244)? -/
def Task.movingFrom (t : Task) (core : Nat) : Bool :=
  t.oldCore == some core || (t.cstate == .migrating && t.core == core && t.saved.isNone)

/-- A word arrives at a core's interface (R261, R244): held while its rank is in transit; to the slot queue of the task that holds
the rank when that has room and no earlier word of the same port waits; else to the inbound buffer; discarded with a record where
no task holds the rank. None: the interface cannot accept it, since the buffer is full or the record finds no room (R257, R258).
DEDUCED: assumption 44. -/
def State.arrive (s : State) (core : Nat) (w : PortWord) : Option State :=
  let c := s.core core
  let q : QWord := { word := w, arrival := s.stamp }
  let room := c.held.length + c.inbound.length < 256
  if s.tasks.any (fun t => t.movingFrom core && t.tenant == w.tenant && t.rank.getLsbD 63 && t.rank.extractLsb' 0 20 == w.rank) then
    if room then some (s.setCore core { c with held := c.held ++ [q] }) else none
  else match s.tasks.find? (·.holds core w.tenant w.rank) with
  | none =>
    if s.postRoom w.tenant then some (s.postOwn w.tenant 3 0 0 0 0 (w.rank.setWidth 64) (w.src.setWidth 64)) else none
  | some t =>
    if (t.port w.port).queue.length < 4 ∧ !(c.inbound.any fun x => x.word.rank == w.rank && x.word.port == w.port && x.word.tenant == w.tenant) then
      some (s.modTask t.tid fun t => t.setPort w.port { (t.port w.port) with queue := (t.port w.port).queue ++ [q] })
    else if room then some (s.setCore core { c with inbound := c.inbound ++ [q] })
    else none

/-! ### Links and routers on the way (R356 to R367) -/

/-- Does a link carry traffic (R357): is it up or degraded? -/
def State.linkUp (s : State) (n : Nat) : Bool :=
  match s.links[n]? with | some l => l.state == .up || l.state == .degraded | none => false

/-- Usable Ouvmer Link ports towards a peer (R362). -/
def State.usablePorts (s : State) (pkg : Nat) : List Nat :=
  (List.range 12).filter fun p => (smapGet (0 : BitVec 12) s.routes pkg).getLsbD p && s.linkUp (p + 5)

/-- The port on which a core's words to a peer leave (R362): position c mod n among the usable ports. DEDUCED: assumption 45. -/
def State.outPort (s : State) (core pkg : Nat) : Option Nat :=
  let ps := s.usablePorts pkg
  ps[core % ps.length]?

/-- The edges of the ring from die `a` up to die `b` (R10, R361): edge e joins dies e and e + 1. -/
def edgesUp (a b : Nat) : List Nat := (List.range ((b + 4 - a) % 4)).map fun i => (a + i) % 4

/-- The dies that a tenant's paddock spans; the whole ring where no paddock has the tenant. -/
def State.dies (s : State) (tenant : BitVec 12) : List Nat :=
  match s.paddock tenant with | some p => p.cfg.dies.map (·.toNat) | none => [0, 1, 2, 3]

/-- The arc that traffic between two dies takes (R361): the shorter one, the one of increasing die number when they are equal; the
other where an edge of it carries nothing, or its inner dies are not the paddock's (R366), if every die of that lies in the paddock.
None: the traffic waits. DEDUCED: assumption 46. -/
def State.arc (s : State) (dies : List Nat) (a b : Nat) : Option (List Nat) :=
  let up := edgesUp a b
  let down := edgesUp b a
  let short := if up.length ≤ down.length then up else down
  let long := if up.length ≤ down.length then down else up
  if a = b then some []
  else if short.all s.linkUp && (short.drop 1).all dies.contains then some short
  else if long.all s.linkUp && long.all (fun e => dies.contains e && dies.contains ((e + 1) % 4)) then some long
  else none

/-- The model's numbers for routers (R366): of the L2 slices and of the L3 slices of a die, of the edges of an arc, of the host port, of an
Ouvmer Link port, and of a cluster. DESIGN CHOICE: assumption 46. -/
def l2Router (die slice : Nat) : Nat := 320 * die + slice
def l3Router (die slice : Nat) : Nat := 320 * die + 160 + slice
def edgeRouters (arc : List Nat) : List Nat := arc.map (1280 + ·)
def hostRouter : Nat := 1284
def portRouter (port : Nat) : Nat := 1285 + port
def clusterRouter (cluster : Nat) : Nat := 1297 + cluster
/-- The first router on the way whose bit for the tenant is clear (R367). -/
def State.stopsAt (s : State) (tenant : BitVec 12) (l : List Nat) : Option Nat :=
  l.find? fun r => !((smapGet (0 : BitVec 4096) s.routerBits r).getLsbD tenant.toNat)
/-- May a message of the tenant go between two dies now: along an arc that carries traffic (R360, R361), past routers of its edges that carry
the tenant's (R366, R367)? A message that a router drops never arrives. DEDUCED: assumption 46. -/
def State.route (s : State) (tenant : BitVec 12) (a b : Nat) : Bool :=
  match s.arc (s.dies tenant) a b with | none => false | some arc => (s.stopsAt tenant (edgeRouters arc)).isNone
/-- May a message of the executing task go to a die now? DESIGN CHOICE: assumption 46. -/
def State.linked (s : State) (die : Nat) : Bool := s.route s.task.tenant s.task.die die

/-- The numbers from `a` to `b`, in rising order. -/
def span (a b : Nat) : List Nat := (List.range (max a b - min a b + 1)).map (min a b + ·)
/-- The clusters of a die that a message passes, x first and then y (R366). -/
def meshPath (a b : Nat) : List Nat :=
  (span (a % 24) (b % 24)).map (fun x => a / 24 * 24 + x) ++ (span (a / 24) (b / 24)).map fun y => y * 24 + b % 24
/-- The routers at a word's clusters and edges. Between dies the clusters on its way from its own cluster to an edge are not known.
DESIGN CHOICE: assumption 46. -/
def wordRouters (a b : Nat) (arc : List Nat) : List Nat :=
  if a / 2304 = b / 2304 then (meshPath (a / 8 % 288) (b / 8 % 288)).map fun c => clusterRouter (288 * (a / 2304) + c)
  else [clusterRouter (a / 8), clusterRouter (b / 8)] ++ edgeRouters arc

/-- Replace a rank-table entry's core after a redirect (R244). -/
def redirectEntry (e : Word) (core : Nat) : Word := (e &&& ~~~(0xFFFC : Word)) ||| (BitVec.ofNat 64 core <<< 2)

/-- The core where the redirects of a rank end (R244). DEDUCED: assumption 44. -/
def State.follow (s : State) (key : BitVec 32) : Nat → Nat → Nat
  | 0, c => c
  | n + 1, c => match (s.core c).redirect.find? (fun r => r.1 == key) with
    | none => c
    | some r => State.follow s key n r.2

/-- A task's send has left a word with a peer package that has still to accept it (R261, R363). -/
def State.peerWaits (s : State) (t : Task) : Bool :=
  match t.peerSent with
  | none => false
  | some p => (smapGet {} s.peerTx p.key).unacked.any (·.1 == p.seq)

/-- Routers that a word of a core passes on its way to an Ouvmer Link port (R366): those of its cluster, of the edges and of the port.
DESIGN CHOICE: assumption 46. -/
def portRouters (core port : Nat) (arc : List Nat) : List Nat := clusterRouter (core / 8) :: edgeRouters arc ++ [portRouter port]
/-- Send a word to a peer package (R261, R362, R363): it waits while no port is usable or can be reached on its base die (R20, R361), and
while unacknowledged words still have to be replayed on a new port; a router may drop it (R367); else it takes the core's next number. The
sender then waits until the peer has accepted it; a sink's element does not. DEDUCED: assumption 45. DEDUCED: assumption 46. -/
def State.sendPeer (s : State) (t : Task) (pkg : Nat) (w : PortWord) (sink : Bool) : Except Stop State :=
  let key := t.core * 4096 + pkg
  let tx := smapGet {} s.peerTx key
  let port := s.outPort t.core pkg
  let p := port.getD 0
  match s.arc (s.dies t.tenant) t.die (p / 3) with
  | none => .error (.wait .retry)
  | some arc =>
  if port.isNone ∨ (tx.unacked ≠ [] ∧ tx.port ≠ port) then .error (.wait .retry)
  else match s.stopsAt t.tenant (portRouters t.core p arc) with
  | some r => .ok { s with drops := s.drops ++ [(r, t.tenant)] }
  | none =>
    let s1 := { s with peerTx := smapSet {} s.peerTx key { next := tx.next + 1, unacked := tx.unacked ++ [(tx.next, w)], port := port } }
    .ok (if sink then s1 else s1.modTask t.tid fun t => { t with peerSent := some { pc := t.pc, next := t.pc, key := key, seq := tx.next } })

/-- Send a word to a core of the package (R261, R366, R367): to the core where redirects end, along an arc that carries traffic,
unless a router on the way drops it. DEDUCED: assumption 46. -/
def State.sendCore (s : State) (t : Task) (e : Word) (w : PortWord) : Except Stop State :=
  -- an old interface answers with a redirect that updates the sender's entry; the word then goes to the new core
  let dest := s.follow (t.tenant ++ w.rank) 9216 (rankCore e)
  match s.arc (s.dies t.tenant) t.die (dest / 2304) with
  | none => .error (.wait .retry)
  | some arc =>
    match s.stopsAt t.tenant (wordRouters t.core dest arc) with
    | some r => .ok { s with drops := s.drops ++ [(r, t.tenant)] }
    | none =>
      let c := s.core t.core
      let s1 := if dest = rankCore e then s
        else s.setCore t.core { c with ranks := c.ranks.map fun x => if rankOf x == w.rank then redirectEntry x dest else x }
      match s1.arrive dest w with | some s2 => .ok s2 | none => .error (.wait .retry)

/-- Send one word through a port of a task (R261 to R263, R362, R366); `sink` says that a stream's sink sends it (R183). The word carries
the tenant identifier of the sender's paddock (R366), whatever the rank-table entry names in TENANT (R260). DESIGN CHOICE: assumption 45. -/
def State.sendFrom (s : State) (t : Task) (n : BitVec 2) (v : Word) (sink : Bool := false) : Except Stop State :=
  let pb := (t.port n).pb
  let drank := pb.extractLsb' 32 20
  if pb.getLsbD 63 = false then .error Stop.illegalOperand
  else match (s.core t.core).ranks.find? (fun e => rankOf e == drank) with
  | none => .error (Stop.resource 3)
  | some e =>
    let w : PortWord := { tenant := t.tenant, src := t.srcRank, rank := drank, port := pb.extractLsb' 56 2, stamp := s.stamp,
                          value := v, sender := t.tid }
    if rankPkg e ≠ 0xFFF then s.sendPeer t (rankPkg e).toNat w sink
    else
      match s.paddock t.tenant with
      | none => .ok s
      | some p =>
        if p.hasCore (rankCore e) then s.sendCore t e w
        else if s.postRoom t.tenant then .ok (s.postOwn t.tenant 3 0 t.tid 0 0 (drank.setWidth 64) (t.srcRank.setWidth 64))
        else .error (.wait .retry)

/-- Send one word through a port of the executing task. -/
def State.send (s : State) (n : BitVec 2) (v : Word) : Except Stop State := s.sendFrom s.task n v

/-- Write the result to position d: a g register, or one word through a port (R53). -/
def State.put (s : State) (o : Ops) (v : Word) : Except Stop State :=
  if o.x.pd then s.send (o.d.setWidth 2) v else .ok (s.wr o.d v)

/-- Complete an instruction that writes `v` to position d: write, consume the port words, advance. -/
def State.complete (s : State) (o : Ops) (v : Word) : Except Stop State := do
  let s1 ← s.put o v
  .ok ((s1.take o).advance o)

/-- An acquire at scope .k or wider by a task of a core adds 1 to SGEN; when it wraps, the SINV lines are cleared (R147).
DESIGN CHOICE: assumption 5. -/
def State.acquireAt (s : State) (core : Nat) (sc : Scope) : State :=
  if sc = .c then s
  else
    let c := s.core core
    s.setCore core { c with sgen := c.sgen + 1
                            lines := if c.sgen + 1 = 0 then c.lines.filter (fun e => !e.2.sinv) else c.lines }
/-- The acquire part of an instruction of the executing task (R100, R147). -/
def State.acquire (s : State) (o : Ops) : State := if o.x.ord.isAcq then s.acquireAt s.task.core o.x.sc else s

end Sys2Proof.Machine
end

