-- ==== Sys2Proof/Machine/Lines.lean ====
section
/-! DEFINITION. Homes of a line (R144), the copies of lines that cores hold (R139, R142, R143), and the states of the dies at the home
L3 (R145, R146, R150 to R153). Copies of lines move; the bytes of memory are those of the coherence order (DESIGN CHOICE,
assumption 5). -/

namespace Sys2Proof.Machine

open Sys2Proof

/-! ### Homes (R144) -/

def stackOf (pa : Nat) : Nat := pa / 2 ^ 35 % 16
def channelOf (pa : Nat) : Nat := pa % 2 ^ 35 / 4096 % 576
def lineOf (pa : Nat) : Nat := pa / 64
def sliceOf (pa : Nat) : Nat := pa / 64 % 160
def State.stack (s : State) (k : Nat) : Stack := if h : k < 16 then s.dramStacks[k] else {}
def State.setStack (s : State) (k : Nat) (x : Stack) : State :=
  if h : k < 16 then { s with dramStacks := s.dramStacks.set k x h } else s
/-- The home die of a physical address: the die that owns its stack. -/
def State.homeDie (s : State) (pa : Nat) : Nat := (s.stack (stackOf pa)).owner.toNat
/-- May an access of a die to a line be served: past the routers of the line's L2 slice on that die and of its home L3 slice (R366, R367),
and between their dies? DEDUCED: assumption 46. -/
def State.way (s : State) (tenant : BitVec 12) (die pa : Nat) : Bool :=
  s.route tenant die (s.homeDie pa) &&
    (s.stopsAt tenant [l2Router die (sliceOf pa), l3Router (s.homeDie pa) (sliceOf pa)]).isNone
/-- The home L2 slice of a line on the die that owns its stack, as one number. -/
def State.homeSlice (s : State) (pa : Nat) : Nat := 160 * s.homeDie pa + sliceOf pa

/-- The two channel ports of a core (R10, R12): the stacks and channels of index 576 m + j on the two edges of its die. -/
def channelPorts (core : Nat) : List (Nat × Nat) :=
  let d := core / 2304
  let k := core % 2304
  [(4 * d + k / 576, k % 576), (4 * ((d + 3) % 4) + k / 576, k % 576)]
/-- The core whose channel port for the frame of an address is live (R12): its index on the die that owns the stack. -/
def State.liveCore (s : State) (pa : Nat) : Nat := 2304 * s.homeDie pa + 576 * (stackOf pa % 4) + channelOf pa
/-- The station at the channel controller of an address on a side of its stack (R186), as a number past those of the slices. -/
def channelStation (pa : Nat) : Nat := 160 + 576 * stackOf pa + channelOf pa

/-- Are a stack's frames in transit (R98, R344: from step 1 until the flip of step 6)? -/
def Stack.inTransit (k : Stack) : Bool := k.state == .handing && decide (k.step.toNat ≤ 6)
/-- The other die of a stack's edge (R10, R350): edge e joins dies e and e + 1. -/
def State.otherDie (s : State) (k : Nat) : Nat :=
  let e := k / 4
  if (s.stack k).owner.toNat = e then (e + 1) % 4 else e
/-- Does home state at address `q` take room in the home slice of address `pa`: it is homed there, or room is reserved for it by
a hand-over under way (R347)? -/
def State.roomAt (s : State) (q pa : Nat) : Bool :=
  s.homeSlice q == s.homeSlice pa ||
    ((s.stack (stackOf q)).inTransit && s.otherDie (stackOf q) == s.homeDie pa && sliceOf q == sliceOf pa)
/-- May a die reach a stack (R342)? -/
def Stack.reachable (k : Stack) (die : Nat) : Bool :=
  (k.state == .owned || k.state == .handing) && (k.reach.getLsbD die || k.owner.toNat == die)

/-! ### Islands (R15, R21) -/

/-- The compute island of a core (R15). -/
def islandOf (core : Nat) : Nat :=
  let c := core / 8 % 288
  24 * (core / 2304) + 2 * (c / 24) + c % 24 / 12

def State.island (s : State) (i : Nat) : Island := smapGet {} s.islands i
def State.setIsland (s : State) (i : Nat) (x : Island) : State := { s with islands := smapSet {} s.islands i x }

/-- Change every core of an island. -/
def State.islandCores (s : State) (i : Nat) (f : Core → Core) : State :=
  { s with cores := smapMap {} s.cores fun k c => if islandOf k = i then f c else c }
/-- Do the clocks of a cluster's island run? -/
def State.clocked (s : State) (cluster : Nat) : Bool := (s.island (islandOf (8 * cluster))).state == .run

/-! ### Copies in the cores -/

def State.line (s : State) (core line : Nat) : Line := smapGet {} (s.core core).lines line
def State.setLine (s : State) (core line : Nat) (x : Line) : State :=
  let c := s.core core
  s.setCore core { c with lines := smapSet {} c.lines line x }

/-- The sleep proxy of a held core acknowledges an invalidation (R155): each one counts, and the index of a line that the core holds is
logged while the log has room. -/
def Core.proxy (c : Core) (index : Option (BitVec 12)) : Core :=
  { c with sleepLog := match index with | some i => if c.sleepLog.length < 64 then c.sleepLog ++ [i] else c.sleepLog | none => c.sleepLog
           sleepCount := c.sleepCount + 1 }
/-- An invalidation of a line is sent to a core: the line is dropped, or the sleep proxy of a held island takes the message (R155). -/
def State.invalidate (s : State) (core line : Nat) : State :=
  let x := s.line core line
  if (s.island (islandOf core)).state = .hold ∧ (x.present = false ∨ x.place ≠ .pool) then
    s.setCore core ((s.core core).proxy (if x.present then some x.index else none))
  else if x.present then s.setLine core line {}
  else s

/-- Key of a directory entry of a die. -/
def dirKey (die line : Nat) : Nat := 2 ^ 34 * die + line
def State.dirEntry (s : State) (die line : Nat) : DirEntry := smapGet .inv s.dir (dirKey die line)
def State.setDir (s : State) (die line : Nat) (x : DirEntry) : State := { s with dir := smapSet .inv s.dir (dirKey die line) x }
/-- Does the die's L2 hold dirty data of the line (R145, R152)? -/
def State.setL2Dirty (s : State) (die line : Nat) (x : Bool) : State := { s with l2dirty := smapSet false s.l2dirty (dirKey die line) x }

/-- The owner's copy becomes shared and clean; its dirty data go to the die's L2. -/
def State.share (s : State) (core line : Nat) : State :=
  let x := s.line core line
  if x.present then
    let s1 := s.setLine core line { x with excl := false, dirty := false }
    if x.dirty then s1.setL2Dirty (core / 2304) line true else s1
  else s

/-- A core keeps a clean shared copy of a line, and the directory that named it as the owner names it as a sharer. -/
def State.disown (s : State) (core line : Nat) : State :=
  let die := core / 2304
  let k := BitVec.ofNat 12 (core % 2304)
  let s1 := s.share core line
  if s1.dirEntry die line = .own k then s1.setDir die line (.shp [k]) else s1

/-- A core gives up what it holds of a line: an owner's directory entry becomes INV, and dirty data go to the die's L2 (R150). -/
def State.giveUp (s : State) (core line : Nat) : State :=
  let x := s.line core line
  let die := core / 2304
  let s1 := if x.dirty then s.setL2Dirty die line true else s
  let s2 := if s1.dirEntry die line = .own (BitVec.ofNat 12 (core % 2304)) then s1.setDir die line .inv else s1
  s2.setLine core line {}

/-- Cores of a die that an entry names (R150). -/
def DirEntry.named : DirEntry → List Nat
  | .inv => []
  | .shp l => l.map (·.toNat)
  | .shc v => ((List.range 72).filter fun j => v.getLsbD j).flatMap fun j => (List.range 32).map (32 * j + ·)
  | .own o => [o.toNat]

/-! ### The home L3 (R152, R153) -/

def State.l3State (s : State) (line x : Nat) : L3State := smapGet .I s.l3 (4 * line + x)
def State.setL3 (s : State) (line x : Nat) (v : L3State) : State := { s with l3 := smapSet .I s.l3 (4 * line + x) v }

/-- The die's L2 gives the line up: every copy inside the die is invalidated first, and dirty data are collected (R145). -/
def State.dropDie (s : State) (line die : Nat) : State :=
  (((s.dirEntry die line).named.foldl (fun s k => s.invalidate (2304 * die + k) line) s).setDir die line .inv).setL2Dirty die line false

/-- Does the die hold the line dirty, in a core or in its L2 (R152: E may have become M without telling)? -/
def State.dieDirty (s : State) (line die : Nat) : Bool :=
  smapGet false s.l2dirty (dirKey die line) || (s.dirEntry die line).named.any fun k => (s.line (2304 * die + k) line).dirty

/-- The owner inside a die keeps a shared copy, and the die's state becomes `v`. -/
def State.keepShared (s : State) (line y : Nat) (v : L3State) : State :=
  let s1 := match s.dirEntry y line with
    | .own o => (s.share (2304 * y + o.toNat) line).setDir y line (.shp [o])
    | _ => s
  s1.setL3 line y v
/-- A die that supplies the line to a reader (R152): O where its data are dirty, else S. -/
def State.supply (s : State) (line y : Nat) : State :=
  match s.l3State line y with
  | .M => s.keepShared line y (if s.dieDirty line y then .O else .S)
  | .E => s.keepShared line y (if s.dieDirty line y then .O else .S)
  | _ => s

/-- L3_READ (R152): a read request of die x, which holds no copy. DEDUCED: assumption 62. -/
def State.l3Read (s : State) (line x : Nat) : State :=
  if s.l3State line x ≠ .I then s
  else
    let alone := (List.range 4).all fun y => y == x || s.l3State line y == .I
    ((List.range 4).foldl (fun s y => if y = x then s else s.supply line y) s).setL3 line x (if alone then .E else .S)
/-- L3_OWNERSHIP (R152): every other die drops the line, and one that holds it dirty supplies the data. DEDUCED: assumption 62. -/
def State.l3Own (s : State) (line x : Nat) : State :=
  let dirty := (List.range 4).any fun y => y != x && s.dieDirty line y
  let s1 := (List.range 4).foldl (fun s y => if y = x ∨ s.l3State line y = .I then s else (s.dropDie line y).setL3 line y .I) s
  (if dirty then s1.setL2Dirty x line true else s1).setL3 line x .M
/-- The home L2 slice of a die obtains ownership of a line for a store to a SINV page, which it then holds dirty (R146, R152). -/
def State.ownThrough (s : State) (die line : Nat) : State := (s.l3Own line die).setL2Dirty die line true
/-- L3_WRITE_BACK (R152), and any other line that a die's L2 evicts (R145): the die's own copies go first. -/
def State.l3Back (s : State) (line x : Nat) : State :=
  if s.l3State line x = .I then s else (s.dropDie line x).setL3 line x .I
/-- BACK_INVALIDATION (R153): every die that holds the line drops it. -/
def State.backInvalidate (s : State) (line : Nat) : State :=
  (List.range 4).foldl (fun s y => if s.l3State line y = .I then s else (s.dropDie line y).setL3 line y .I) s

/-- The die has ownership before its L2 grants OWN (R150). -/
def State.dieOwns (s : State) (die line : Nat) : State :=
  match s.l3State line die with | .M | .E => s | _ => s.l3Own line die

/-! ### Halters (R213) -/

/-- The cores of a set drop what they hold of a line, copies that no directory names included. -/
def State.dropCopies (s : State) (line : Nat) (within : Nat → Bool) : State :=
  s.cores.foldl (fun s c => if within c.1 && (smapGet {} c.2.lines line).present then s.invalidate c.1 line else s) s
/-- The die's own copies are invalidated, and its L2 holds the line, which a tile store will write there. -/
def State.collect (s : State) (line die : Nat) : State :=
  ((s.dropCopies line fun k => k / 2304 == die).setDir die line .inv).setL2Dirty die line true
/-- What taking a halter does to the copies of its line: for TST the holder has ownership at the halter's level and every copy below is
invalidated; for TLD the line's current value comes to that level. -/
def State.halterCopies (s : State) (store : Bool) (level : HalterLevel) (die line : Nat) : State :=
  match level, store with
  | .channel, _ => s
  | .slice, true => (s.l3Own line die).collect line die
  | .l3, true => (s.backInvalidate line).dropCopies line fun _ => true
  | .slice, false =>
    let s1 := s.l3Read line die
    match s1.dirEntry die line with
    | .own o => (s1.share (2304 * die + o.toNat) line).setDir die line (.shp [o])
    | _ => s1
  | .l3, false => (List.range 4).foldl (fun s y => s.supply line y) s

end Sys2Proof.Machine
end

