-- ==== Sys2Proof/Machine/Access.lean ====
section
/-! DEFINITION. Accesses: homes of a line, the page walk, the checks of R92 with R388, loads and stores with their code
marks, monitors and alias guard. -/

namespace Sys2Proof.Machine

open Sys2Proof

/-! ### The page walk (R319 to R323) -/

/-- Fields of a table entry (R321). -/
def pteV (e : Word) : Bool := e.getLsbD 0
def pteLeaf (e : Word) : Bool := e.getLsbD 1
def pteDp (e : Word) : Bool := e.getLsbD 3
def pteFrame (e : Word) : Nat := (e.extractLsb' 12 27).toNat
def pteX (e : Word) : Bool := e.getLsbD 63
def pteW (e : Word) : Bool := e.getLsbD 62
def pteR (e : Word) : Bool := e.getLsbD 61
def pteCtr (e : Word) : Bool := e.getLsbD 60
def pteRep (e : Word) : Bool := e.getLsbD 59
def pteTlk (e : Word) : Bool := e.getLsbD 58
def pteMode (e : Word) : BitVec 2 := e.extractLsb' 56 2
def pteCont (e : Word) : Bool := e.getLsbD 55
def pteSup (e : Word) : Bool := e.getLsbD 54
def pteNcopy (e : Word) : Nat := (e.extractLsb' 52 2).toNat
/-- Stack of copy c: copy 0 from FRAME, the others from STK1 to STK3. -/
def pteStk (e : Word) (c : Nat) : BitVec 4 :=
  if c = 0 then e.extractLsb' 35 4 else if c = 1 then e.extractLsb' 40 4 else if c = 2 then e.extractLsb' 44 4
  else e.extractLsb' 48 4

/-- Does a valid replicated entry name one stack twice (R322)? -/
def pteTwice (e : Word) : Bool :=
  (List.range (pteNcopy e + 1)).any fun i => (List.range i).any fun j => pteStk e i == pteStk e j

/-- Is a valid entry at a level malformed (R322)? `rep` says that replicated pages are an accepted feature (R383). -/
def pteMalformed (rep : Bool) (level : Nat) (e : Word) : Bool :=
  e.getLsbD 39 || e.extractLsb' 4 8 != 0 || e.getLsbD 2 || pteDp e || pteMode e == 3 ||
  (!pteLeaf e && (e &&& ~~~(0x7FFFFFF003 : Word)) != 0) ||
  (pteLeaf e && level == 1) || (!pteLeaf e && level == 4) ||
  (pteLeaf e && level == 3 && pteFrame e % 2 ^ 9 != 0) || (pteLeaf e && level == 2 && pteFrame e % 2 ^ 18 != 0) ||
  (pteW e && pteX e) || (pteCtr e && (pteX e || pteRep e || pteTlk e)) || (pteRep e && (pteW e || pteX e)) ||
  (pteRep e && (!rep || pteTwice e))

/-- How a walk ends (R320, R326, R332): a leaf with its level and its size in address bits, the contiguous hint included (R323), an
entry with V = 0 (paged out or not), a malformed entry, an entry that could not be read, a table frame in transit (R98), or an entry
whose read must wait: under a halter (R168), or with no way to its die (R360). -/
inductive Walk where
  | leaf (e : Word) (level bits : Nat)
  | absent (level : Nat) (dp : Bool)
  | malformed
  | unreadable
  | transit (stack : BitVec 4)
  | busy
deriving DecidableEq, Repr

/-- Address bits a leaf maps at a level without the contiguous hint. -/
def levelBits (level : Nat) : Nat := if level = 4 then 12 else if level = 3 then 21 else if level = 2 then 30 else 39

/-- Who accesses: the core (its scratch is the window's), the address space, whether as a supervisor, the die whose walker pool
translates where it is not the core's (R324), and where the request was held in transit (R345). -/
structure Who where
  core : Nat
  aspace : Word
  sup : Bool
  tenant : BitVec 12
  walker : Option Nat := none
  granted : Option Grant := none
deriving DecidableEq, Repr

/-- The die that translates for an access, and the die of the core that makes it. -/
def Who.die (w : Who) : Nat := w.walker.getD (w.core / 2304)
def Who.home (w : Who) : Nat := w.core / 2304
/-- Where the executing request of a task was held or queued (R345, R347): an access held in transit, a RAWAIT whose monitor the flip has
ended, a SENDM behind an activation. -/
def Task.granted (t : Task) : Option Grant :=
  match t.wait with
  | .transit k true c => some { stack := k.toNat, since := c }
  | .ring l true => some { stack := stackOf (64 * l), since := 0 }
  | .send pa => some { stack := stackOf pa, since := 0 }
  | _ => none
def Task.who (t : Task) : Who :=
  { core := t.core, aspace := t.aspace, sup := t.sup, tenant := t.tenant, granted := t.granted }

/-- Has a line an uncorrectable error (R348)? -/
def State.poisoned (s : State) (pa n : Nat) : Bool :=
  !s.poison.isEmpty && (List.range (lineOf (pa + n - 1) - lineOf pa + 1)).any fun i => smapGet false s.poison (lineOf pa + i)

/-- Was the request held at the home of a stack before the access right flipped (R345)? -/
def Who.holds (w : Who) (k : Nat) : Bool := match w.granted with | some g => g.stack == k | none => false
/-- May an access, or the walker of a die, reach a stack (R342), or was its request held there? -/
def State.reach (s : State) (w : Who) (die k : Nat) : Bool := (s.stack k).reachable die || w.holds k

/-- The arrivals of the requests that the homes of a stack hold and have still to serve (R307, R344, R345): of tasks, their streams, the
copy units whose clocks run, the adds of agents, and the host. DEDUCED: assumption 56. -/
def State.arrivals (s : State) (k : Nat) : List Nat :=
  let of (g : Option Grant) : Option Nat := match g with | some g => if g.stack = k then some g.since else none | none => none
  (s.tasks.filterMap fun t => match t.wait with
    | .transit x true c => if x.toNat = k ∧ (t.cstate = .waiting ∨ t.cstate = .running) then some c else none
    | _ => none) ++
    ((s.tasks.filter Task.streaming).flatMap fun t => t.streams.toList.filterMap fun r => of r.grant) ++
    ((s.clusters.filter fun c => s.clocked c.1).flatMap fun c =>
      (c.2.copies.flatMap fun x => (x.grant :: x.windows.map (·.grant)).filterMap of) ++ c.2.jobs.filterMap fun x => of x.2.grant) ++
    s.heldAdds.filterMap (fun a => of a.grant) ++
    ((s.hostHeld.filter fun a => stackOf a.pa == k && (s.arc [0, 1, 2, 3] 0 (s.homeDie a.pa)).isSome &&
        !(s.halters.any fun h => decide (lineOf a.pa ≤ h.line) && decide (h.line ≤ lineOf (a.pa + a.n - 1)))).map (·.since))
/-- Has a held request no other before it (R344)? -/
def State.turn (s : State) (g : Grant) : Bool := (s.arrivals g.stack).all fun c => decide (g.since ≤ c)
/-- Must a held request wait for one that arrived before it? -/
def State.behind (s : State) (w : Who) (k : Nat) : Bool := match w.granted with | some g => g.stack == k && !s.turn g | none => false

/-- The table entry of a level that a die's walker pool caches for an address (R324), where the choice of R325 falls on it.
DESIGN CHOICE: assumption 6. -/
def State.cachedTable (s : State) (w : Who) (level va : Nat) : Option Word :=
  match s.walkCache.find? (fun x => x.die == w.die && x.asid == w.aspace.extractLsb' 52 12 && x.level == level &&
      x.tag == va / 2 ^ levelBits level) with
  | some x => if Config.staleTable s.free level then some x.entry else none
  | none => none

/-- Why the entry of a table cannot be read now (R98, R154, R168, R326, R348, R360). -/
def State.tableStop (s : State) (w : Who) (pa : Nat) : Option Walk :=
  let k := stackOf pa
  if s.reach w w.die k = false ∨ s.poisoned pa 8 = true then some .unreadable
  else if (s.stack k).inTransit then some (.transit (BitVec.ofNat 4 k))
  else if s.halters.any (fun h => h.line == lineOf pa) || !s.way w.tenant w.die pa then some .busy
  else none

/-- Does the walker honour the contiguous hint at the leaf found (R323)? -/
def State.contOk (s : State) (rep : Bool) (level : Nat) (table : Nat) (idx : Nat) : Bool :=
  let first := idx / 16 * 16
  let ent (i : Nat) : Word := BitVec.ofNat 64 (s.mem.read (table * 4096 + 8 * (first + i)) 8)
  let unit := if level = 4 then 1 else 512
  (List.range 16).all fun i =>
    pteV (ent i) && pteLeaf (ent i) && pteCont (ent i) && !pteMalformed rep level (ent i) &&
    (ent i).extractLsb' 40 24 == (ent 0).extractLsb' 40 24 &&
    pteFrame (ent 0) % (16 * unit) == 0 && pteFrame (ent i) == pteFrame (ent 0) + i * unit
/-- Size in address bits of a leaf that a walk finds in a table, the contiguous hint included (R320, R323). -/
def State.leafBits (s : State) (rep : Bool) (table va : Nat) (e : Word) (level : Nat) : Nat :=
  if pteCont e && (level == 3 || level == 4) && s.contOk rep level table (va / 2 ^ levelBits level % 512)
  then levelBits level + 4 else levelBits level

/-- Walk from the table at `frame` for the levels left (`fuel`), with the entries that the walker pool caches. -/
def State.walkFrom (s : State) (rep : Bool) (w : Who) (va : Nat) : Nat → Nat → Nat → Walk
  | 0, _, _ => .malformed
  | fuel + 1, level, frame =>
    let pa := frame * 4096 + 8 * (va / 2 ^ levelBits level % 512)
    match s.cachedTable w level va with
    | some e => State.walkFrom s rep w va fuel (level + 1) (pteFrame e)
    | none =>
      match s.tableStop w pa with
      | some x => x
      | none =>
        let e : Word := BitVec.ofNat 64 (s.mem.read pa 8)
        if pteV e = false then .absent level (pteDp e)
        else if pteMalformed rep level e then .malformed
        else if pteLeaf e then .leaf e level (s.leafBits rep frame va e level)
        else State.walkFrom s rep w va fuel (level + 1) (pteFrame e)

/-- The walk of an address in an address space (R319, R320). -/
def State.walk (s : State) (rep : Bool) (w : Who) (va : Nat) : Walk :=
  if w.aspace.getLsbD 0 = false then .absent 1 false
  else s.walkFrom rep w va 4 1 (w.aspace.extractLsb' 12 27).toNat

/-- Cost of reading a copy on a stack owned by another die: edges of the ring between (R156). -/
def ringCost (a b : Nat) : Nat := if a = b then 0 else if (a + 2) % 4 = b then 2 else 1

/-- The copy of a replicated page that a core's die reads (R156, R343): least cost among the copies it may reach, or whose home holds
the request, one that is not handing over before one that is, ties to the lower number. -/
def State.copyFor (s : State) (w : Who) (e : Word) : Option Nat :=
  let die := w.home
  let ok := (List.range (pteNcopy e + 1)).filter fun c => s.reach w die (pteStk e c).toNat
  let still := ok.filter fun c => (s.stack (pteStk e c).toNat).state != .handing
  let cand := if still.isEmpty then ok else still
  cand.foldl (fun best c =>
    match best with
    | none => some c
    | some b => if ringCost die (s.stack (pteStk e c).toNat).owner.toNat < ringCost die (s.stack (pteStk e b).toNat).owner.toNat
                then some c else some b) none

/-- Physical address of a leaf's byte (R321): copy 0, or the copy chosen for the reading die. -/
def leafPa (e : Word) (level va : Nat) : Nat := pteFrame e * 4096 + va % 2 ^ levelBits level
def withStack (pa : Nat) (k : BitVec 4) : Nat := pa % 2 ^ 35 + k.toNat * 2 ^ 35

/-! ### Checks (R92, R98, R326, R388) -/

/-- How an access uses a counter page: it is refused, allowed (an LD of 8 bytes), or required (R98, R312). -/
inductive CtrUse where | deny | allow | require
deriving DecidableEq, Repr

/-- What an access needs of its page. -/
structure Want where
  r : Bool := false
  w : Bool := false
  x : Bool := false
  tlk : Bool := false
  /-- The access goes to a home slice, so the scratch window refuses it (R388). -/
  home : Bool := false
  ctr : CtrUse := .deny
deriving DecidableEq, Repr

/-- Why an access is not performed. -/
inductive Bad where
  | translation (detail : BitVec 8)
  | paging (level : Nat)
  | permission
  | stack
  /-- the frame is in transit (R98); `held` says that the request waits at the line's home and is served at the new one (R345) -/
  | transit (stack : BitVec 4) (held : Bool)
  /-- it must wait: for a table entry's halter (R168), or for a way between the dies (R360) -/
  | busy
deriving DecidableEq, Repr

/-- Does a failed access wait: for a hand-over (R98), a halter (R168) or a way between the dies (R360)? -/
def Bad.waits : Bad → Bool | .transit _ _ | .busy => true | _ => false
/-- What the home of a stack in transit holds of a request that has failed (R345): one that is held already keeps its place (R344). -/
def Who.keep (w : Who) (clk : Nat) : Bad → Option Grant
  | .transit k true => if w.holds k.toNat then w.granted else some { stack := k.toNat, since := clk }
  | .transit _ false | .busy => w.granted
  | _ => none

/-- Where an access goes: a scratch byte (its key), or a physical address with its leaf. -/
inductive Loc where
  | scratch (key : Nat)
  | phys (pa : Nat) (leaf : Word)
deriving DecidableEq, Repr

/-- First address of the scratch window (R138). -/
def scratchBase : Nat := 0xFFFFFFFC0000

/-- Scratch segments of a core in bytes (R136). -/
def Core.scratchBytes (c : Core) : Nat := (c.lsplit.extractLsb' 0 5).toNat * 16384

/-- The page's permissions against what the access needs (R92 step 3, R98, R312, R326). -/
def permitted (sup : Bool) (n : Want) (e : Word) : Bool :=
  (!n.r || pteR e) && (!n.w || (pteW e && !pteRep e)) && (!n.x || pteX e) && (!n.tlk || pteTlk e) && (!pteSup e || sup) &&
  (match n.ctr with | .deny => !pteCtr e | .allow => true | .require => pteCtr e)

/-- The scratch window as R388 checks it. -/
def scratchPermitted (n : Want) : Bool := !n.x && !n.tlk && !n.home && n.ctr != .require

/-- Level of the leaf of a cached translation. -/
def TlbEntry.level (e : TlbEntry) : Nat := if e.bits < 20 then 4 else if e.bits < 30 then 3 else 2
/-- The leaf of one page of a cached translation: in a contiguous group the frames follow each other (R323). -/
def TlbEntry.leafOf (e : TlbEntry) (va : Nat) : Word :=
  e.leaf + BitVec.ofNat 64 (va % 2 ^ e.bits / 2 ^ levelBits e.level * (2 ^ levelBits e.level))
/-- Does a cached translation map a physical address, through any of its copies (R337)? -/
def TlbEntry.maps (e : TlbEntry) (pa : Nat) : Bool :=
  (decide (e.pa ≤ pa) && decide (pa < e.pa + 2 ^ e.bits)) ||
    (pteRep e.leaf && (List.range (pteNcopy e.leaf + 1)).any fun c =>
      let q := withStack e.pa (pteStk e.leaf c)
      decide (q ≤ pa) && decide (pa < q + 2 ^ e.bits))
/-- The cached translation of an address (R324): in the micro-TLB of the core or the TLB of its cluster, none for a fetch that goes
through a die's walker pool. -/
def State.cached (s : State) (w : Who) (va : Nat) : Option TlbEntry :=
  if w.walker.isSome then none
  else s.tlb.find? fun e => (e.place == w.core || e.place == 10000 + w.core / 8) && e.asid == w.aspace.extractLsb' 52 12 &&
    e.va / 2 ^ e.bits == va / 2 ^ e.bits

/-- What the address space gives for an address: the walk, or the cached translation where the table has changed since and the
choice of R325 falls on the old entry. DESIGN CHOICE: assumption 6. -/
def State.lookup (s : State) (w : Who) (va : Word) : Walk :=
  let now := s.walk (s.feat w.tenant 1) w va.toNat
  match s.cached w va.toNat with
  | none => now
  | some e =>
    let old := Walk.leaf (e.leafOf va.toNat) e.level e.bits
    if now = old then now else if Config.staleTranslation s.free va then old else now

/-- Fields of a stash entry (R140). -/
def stashNpg (w : Word) : Nat := (w.extractLsb' 56 7).toNat
def stashLoff (w : Word) : Nat := (w.extractLsb' 50 6).toNat
def stashVbase (w : Word) : Nat := (w.extractLsb' 12 36).toNat
/-- Segments of a core's scratch and of its stash (R136). -/
def Core.scr (c : Core) : Nat := (c.lsplit.extractLsb' 0 5).toNat
def Core.stashSegs (c : Core) : Nat := (c.lsplit.extractLsb' 8 5).toNat
/-- The stash entry of a core that maps an address of an address space, and the index in the local SRAM of the address's line (R140,
R142). -/
def Core.stashPlace (c : Core) (asid : BitVec 12) (va : Nat) : Option (Nat × Nat) :=
  ((List.range 8).find? fun k =>
    let w := c.stash.toList.getD k 0
    w.getLsbD 63 && (c.stashSpace.toList.getD k 0).extractLsb' 52 12 == asid && decide (stashVbase w * 4096 ≤ va) &&
      decide (va < (stashVbase w + stashNpg w) * 4096)).map fun k =>
    let w := c.stash.toList.getD k 0
    (k, 256 * c.scr + (stashLoff w * 4096 + (va - stashVbase w * 4096)) / 64)
/-- Does an access of an address space hit a line that the core holds: one in the stash only through the entry that maps it there
(R140)? -/
def Core.hitsLine (c : Core) (x : Line) (asid : BitVec 12) (va : Nat) : Bool :=
  x.present && (x.place != .stash || c.stashPlace asid va == some (x.entry.toNat, x.index.toNat))

/-- Is an access to a line that lies on a stack in transit performed at the core, by a copy that it still holds and a translation
still cached (R345)? A load of a DIR line, a load of a SINV line of the current generation, or a store to a DIR line held exclusive;
never an access that a home slice performs, nor one to a counter page (R302). DEDUCED: assumption 56. -/
def State.heldHere (s : State) (w : Who) (n : Want) (va : Word) (pa : Nat) (e : Word) : Bool :=
  let c := s.core w.core
  let x : Line := smapGet {} c.lines (lineOf pa)
  c.hitsLine x (w.aspace.extractLsb' 52 12) va.toNat && (s.cached w va.toNat).isSome && !n.home && !n.x && !pteCtr e &&
    ((pteMode e == 0 && (!n.w || x.excl)) || (pteMode e == 1 && !n.w && x.stamp == c.sgen))

/-- Is a request for a frame of stack k in transit held at the line's home (R345): one of a die whose walkers mark nothing, one through
a translation still cached, or one held already? -/
def State.heldAtHome (s : State) (w : Who) (va : Word) (k : Nat) : Bool :=
  w.die != (s.stack k).owner.toNat || (s.cached w va.toNat).isSome || w.holds k

/-- The frame of an access that its leaf maps: reach of the core's die (R92 step 4, R342), transit (R98, R345), the turn of a request
that was held (R344), and a way between the dies (R360). -/
def State.checkFrame (s : State) (w : Who) (n : Want) (va : Word) (pa : Nat) (e : Word) : Except Bad Loc :=
  let k := stackOf pa
  if s.reach w w.home k = false then .error .stack
  else if s.heldHere w n va pa e then .ok (.phys pa e)
  else if (s.stack k).inTransit then .error (.transit (BitVec.ofNat 4 k) (s.heldAtHome w va k))
  else if s.behind w k then .error (.transit (BitVec.ofNat 4 k) true)
  else if s.way w.tenant w.home pa then .ok (.phys pa e)
  else .error .busy

/-- Steps 2 to 4 of R92: the location of an access, or why it fails. DEDUCED: assumption 56. -/
def State.check (s : State) (w : Who) (n : Want) (va : Word) : Except Bad Loc :=
  if va.extractLsb' 48 16 ≠ 0 then .error (.translation 3)
  else if scratchBase ≤ va.toNat then
    if (s.core w.core).scratchBytes ≤ va.toNat - scratchBase then .error (.translation 5)
    else if scratchPermitted n then .ok (.scratch (262144 * w.core + (va.toNat - scratchBase)))
    else .error .permission
  else
    match s.lookup w va with
    | .absent level dp => if dp && s.feat w.tenant 0 then .error (.paging level) else .error (.translation 1)
    | .malformed => .error (.translation 2)
    | .unreadable => .error (.translation 4)
    -- the walkers of the giving die find the frame marked and stall; the table read of another die is held at its home (R345)
    | .transit k => .error (.transit k (w.die != (s.stack k.toNat).owner.toNat))
    | .busy => .error .busy
    | .leaf e level _ =>
      if permitted w.sup n e = false then .error .permission
      else
        let pa := leafPa e level va.toNat
        if pteRep e then
          match s.copyFor w e with
          | none => .error .stack
          | some c => s.checkFrame w n va (withStack pa (pteStk e c)) e
        else s.checkFrame w n va pa e

/-- The stop of a failed access of the executing task (R92, R98, R238); `code` is the record's code of R334. -/
def Bad.stop (va : Word) (code : BitVec 8) : Bad → Stop
  | .translation d => .trap { kind := 5, detail := d, info0 := va }
  | .paging level => .park va level code
  | .permission => .trap { kind := 6, info0 := va }
  | .stack => .trap { kind := 7, info0 := va }
  | .transit k held => .wait (.transit k held 0)
  | .busy => .wait .retry

/-- Is the code bit of a location's frame set (R327)? -/
def State.isCode (s : State) (pa : Nat) : Bool := smapGet false s.codeBits (pa / 4096)
/-- Would the translation of a location be installed for a frame whose code bit is still clear (R327)? -/
def State.needsX (s : State) : Loc → Bool
  | .scratch _ => false
  | .phys pa e => pteX e && !s.isCode pa

/-- Check an access of the executing task. A translation with X for a frame whose code bit is clear is installed only when the
walker has set the bit (R327): the access waits for that. -/
def State.access (s : State) (n : Want) (va : Word) : Except Stop Loc :=
  match s.check s.task.who n va with
  | .ok l => if s.needsX l then .error (.wait (.walk va)) else .ok l
  | .error b => .error (b.stop va (if n.w then 2 else 1))

/-- Size in address bits of the leaf that maps an address; 4 KiB where none does. -/
def State.leafSize (s : State) (w : Who) (va : Word) : Nat :=
  match s.lookup w va with
  | .leaf _ _ bits => bits
  | _ => 12
/-- Every exclusive copy of a line of the frames is taken back, its dirty data written to the home. -/
def State.takeBack (s : State) (fs : List Nat) : State :=
  s.cores.foldl (fun s c =>
    (c.2.lines.filter fun x => fs.contains (x.1 / 64) && x.2.excl).foldl (fun s x => s.disown c.1 x.1) s) s
/-- Before a translation with X is installed for frames whose code bit is clear (R327): the bits are set, every cached
translation of the frames is dropped, and exclusive copies of their lines are taken back. `pa` lies in the leaf, which maps
2^bits bytes. -/
def State.installX (s : State) (pa bits : Nat) : State :=
  let first := pa / 2 ^ bits * 2 ^ (bits - 12)
  let fs : List Nat := ((List.range (2 ^ (bits - 12))).map fun k => first + k).filter fun f => !smapGet false s.codeBits f
  if fs.isEmpty then s
  else
    { s with codeBits := fs.foldl (fun m f => smapSet false m f true) s.codeBits
             tlb := s.tlb.filter fun e => !(fs.any fun f => e.maps (4096 * f)) }.takeBack fs
/-- What a walk for a read of an agent does for a frame with X whose code bit is clear (R327). -/
def State.noteX (s : State) (w : Who) (va : Word) (l : Loc) : State :=
  match l with | .scratch _ => s | .phys pa _ => if s.needsX l then s.installX pa (s.leafSize w va) else s

/-- Is a line under a halter of another holder (R168)? -/
def State.haltered (s : State) (tid : Tid) (line : Nat) : Bool := s.halters.any fun h => h.line == line && h.tid != tid

/-- An access to a haltered line waits until the halter drops (R95, R168, R213). -/
def State.notHaltered (s : State) : Loc → Except Stop Unit
  | .scratch _ => .ok ()
  | .phys pa _ => if s.haltered s.task.tid (lineOf pa) then .error (.wait .retry) else .ok ()

/-! ### Loads and stores -/

/-- The physical address of a location in memory; scratch has none (R388). -/
def Loc.pa : Loc → Nat | .scratch _ => 0 | .phys pa _ => pa
/-- Has the data of a location an uncorrectable error (R240, R348)? -/
def State.locPoisoned (s : State) (l : Loc) (n : Nat) : Bool := match l with | .scratch _ => false | .phys pa _ => s.poisoned pa n
/-- The `n` bytes at a location. DESIGN CHOICE: assumption 5. -/
def State.readLoc (s : State) (l : Loc) (n : Nat) : Nat :=
  match l with | .scratch k => s.scratch.read k n | .phys pa _ => s.mem.read pa n
/-- What a load, atomic or element of `n` bytes returns: the bytes, or no defined value where they have an uncorrectable error
(R240). DEDUCED: assumption 22. -/
def State.loaded (s : State) (l : Loc) (n : Nat) : Nat :=
  if s.locPoisoned l n then (Config.dataErrorValue s.free).toNat % 2 ^ (8 * n) else s.readLoc l n
/-- The executing task takes the data error of an access at its next boundary (R240). -/
def State.noteError (s : State) (va : Word) (l : Loc) (n : Nat) : State :=
  if s.locPoisoned l n then s.setTask { s.task with dataErr := some (va, s.task.pc, l.pa) } else s

/-- A write to a line performs: the monitors on it fire (R255, R269). -/
def Task.fire (t : Task) (lo hi : Nat) : Task :=
  match t.wait with
  | .wfe l c _ r => if lo ≤ l ∧ l ≤ hi then { t with wait := .wfe l c true r } else t
  | .ring l _ => if lo ≤ l ∧ l ≤ hi then { t with wait := .ring l true } else t
  | _ => t

/-- Write `n` bytes of DRAM and fire the monitors on their lines; a line written whole has good check bits again (R348).
DESIGN CHOICE: assumption 5. DESIGN CHOICE: assumption 69. -/
def State.poke (s : State) (pa n v : Nat) : State :=
  { s with mem := s.mem.write pa n v
           poison := s.poison.filter fun e => !(decide (pa ≤ 64 * e.1) && decide (64 * e.1 + 64 ≤ pa + n))
           task := s.task.fire (lineOf pa) (lineOf (pa + n - 1))
           others := s.others.map fun t => t.fire (lineOf pa) (lineOf (pa + n - 1)) }

/-- The mark of a code store on a line (R328): a standing mark is taken over; where the writing die's slice has no room for one
more, the task's own marks there are cleared first; none where it must wait. -/
def State.mark (s : State) (tid : Tid) (die : Nat) (line : Nat) : Option State :=
  let m : Mark := { line := line, tid := some tid, die := some (BitVec.ofNat 2 die) }
  let rest := s.marks.filter fun x => x.line != line
  let here (x : Mark) : Bool := x.die == some (BitVec.ofNat 2 die) && x.line % 160 == line % 160
  if s.marks.any (fun x => x.line == line && here x) then
    some { s with marks := s.marks.map fun x => if x.line == line then m else x }
  else if (rest.filter here).length < 1024 then some { s with marks := rest ++ [m] }
  else
    let kept := rest.filter fun x => !(x.tid == some tid && here x)
    if kept.length < rest.length then some { s with marks := kept ++ [m] } else none

/-- Mark every line of a code store of `n` bytes. -/
def State.markRange (s : State) (tid : Tid) (die : Nat) (pa n : Nat) : Option State :=
  if s.isCode pa then
    (List.range (lineOf (pa + n - 1) - lineOf pa + 1)).foldlM (fun s i => s.mark tid die (lineOf pa + i)) s
  else some s

/-- A line that a code store could not mark: the task waits (R328). -/
def State.markWait (s : State) (pa : Nat) : Stop :=
  match s.task.wait with
  | .mark _ c => .wait (.mark (lineOf pa) c)
  | _ => .wait (.mark (lineOf pa) s.clk)

/-! ### The alias guard (R97, R190) -/

/-- Bytes of an element format. -/
def fmtBits : Fmt → Nat
  | .raw => 8 | .i4 | .n4 | .e2m1 | .mxfp4 | .ob4 => 4 | .i8 | .n8 | .e4m3 | .e5m2 => 8
  | .i16 | .n16 | .fp16 | .bf16 => 16 | .i32 | .n32 | .fp32 => 32 | .i64 | .n64 => 64

/-- Element j of the pattern (R180), exactly. -/
def Desc.element (d : Desc) (j : Nat) : Int :=
  let e0 := d.ext0.toNat
  let e1 := d.ext1.toNat
  (d.base.toNat : Int) + (j % e0 : Nat) * d.stride0.toInt + (j / e0 % e1 : Nat) * d.stride1.toInt +
    (j / (e0 * e1) : Nat) * d.stride2.toInt
/-- Number of elements (R180). -/
def Desc.count (d : Desc) : Nat := d.ext0.toNat * d.ext1.toNat * d.ext2.toNat
/-- Bytes of an element, and of an index of indexed mode (R179). -/
def Desc.size (d : Desc) : Nat := fmtBits d.fmt / 8
def Desc.indexSize (d : Desc) : Nat := if d.ifmt = 0 then 2 else if d.ifmt = 1 then 4 else 8
/-- A reducing stream (R181). -/
def Desc.reducing (d : Desc) : Bool := d.mode == 2 || (d.mode == 3 && d.op != 0)
/-- Address of the target that an index names (R180). -/
def Desc.target (d : Desc) (x : Nat) : Int := (d.tbase.toNat : Int) + (x : Int) * d.tstride.toInt
/-- An exact address as a 48-bit virtual address (R180). -/
def vaOf (a : Int) : Option Word := if 0 ≤ a ∧ a < 2 ^ 48 then some (BitVec.ofNat 64 a.toNat) else none

/-- Why an element fetch fails: FCODE, what EINFO0 reports, and the level of an absent entry (R189, R192). -/
structure SFault where
  code : BitVec 8
  info : Word
  level : Nat := 0
deriving DecidableEq, Repr

/-- A failed access as an element fault; an access to a frame in transit waits, and so does one with no way to its home (R187). -/
def Bad.sfault (va : Word) : Bad → Option SFault
  | .translation _ => some { code := 1, info := va }
  | .paging l => some { code := 5, info := va, level := l }
  | .permission => some { code := 2, info := va }
  | .stack => some { code := 3, info := va }
  | .transit _ _ => none
  | .busy => none

/-- Where a read at an exact address goes as a plain load of a task (R170); no fault where the read must wait: for a halter (R168), a
hand-over or a link. -/
def State.fetchLoc (s : State) (w : Who) (tid : Tid) (a : Int) : Except (Option SFault) (Word × Loc) :=
  match vaOf a with
  | none => .error (some { code := 1, info := BitVec.ofInt 64 a })
  | some va =>
    match s.check w { r := true } va with
    | .error b => .error (b.sfault va)
    | .ok (.scratch k) => .ok (va, .scratch k)
    | .ok (.phys pa e) => if s.haltered tid (lineOf pa) then .error none else .ok (va, .phys pa e)
/-- Where the target of an index that has been read lies (R180, R191); an indexed stream's target never lies in scratch (R388). -/
def State.targetLoc (s : State) (w : Who) (tid : Tid) (d : Desc) (x : Nat) : Except (Option SFault) (Word × Loc) :=
  let a := d.target x
  if (scratchBase : Int) ≤ a ∧ a < 2 ^ 48 then .error (some { code := 2, info := BitVec.ofInt 64 a }) else s.fetchLoc w tid a
/-- The reads that bring element j as plain loads of the owning task now, with their sizes: in indexed mode the index, which is checked
against IBOUND (R191), and then its target. -/
def State.elementPath (s : State) (w : Who) (tid : Tid) (d : Desc) (j : Nat) : Except (Option SFault) (List (Word × Loc × Nat)) :=
  match s.fetchLoc w tid (d.element j) with
  | .error e => .error e
  | .ok i =>
    if d.mode ≠ 3 then .ok [(i.1, i.2, d.size)]
    else
      let x := s.loaded i.2 d.indexSize
      if d.ibound.toNat ≤ x then .error (some { code := 4, info := BitVec.ofNat 64 x })
      else (s.targetLoc w tid d x).map fun t => [(i.1, i.2, d.indexSize), (t.1, t.2, d.size)]
/-- The value that the last of the reads of an element returns, and the index that its first one does. -/
def State.pathValue (s : State) (l : List (Word × Loc × Nat)) : Nat := match l.getLast? with | some x => s.loaded x.2.1 x.2.2 | none => 0
def State.pathIndex (s : State) (l : List (Word × Loc × Nat)) : Nat := match l.head? with | some x => s.loaded x.2.1 x.2.2 | none => 0
/-- Value of element j as a plain load of the owning task now. -/
def State.elementNow (s : State) (w : Who) (tid : Tid) (d : Desc) (j : Nat) : Except (Option SFault) Nat :=
  (s.elementPath w tid d j).map s.pathValue

/-- A stream becomes faulted at element `j` (R192): the elements below it are kept. -/
def Stream.fault (r : Stream) (e : SFault) (j : Nat) : Stream :=
  { r with state := .faulted, fcode := e.code, faultJ := j, faultInfo := e.info, faultLevel := e.level, grant := none, traced := none }
/-- A fetched element cannot be read again: the stream is faulted there, and drops what it has fetched from there on. -/
def Stream.faultAt (r : Stream) (e : SFault) (j : Nat) : Stream :=
  { r.fault e j with fidx := j, index := none, read := r.read.filter (·.1 < j), buf := r.buf.filter (·.1 < j), sent := r.sent.filter (·.1 < j), pend := r.pend.filter (· < j),
                     answers := r.answers.filter (·.1 < j) }

/-- Streams that the guard covers (R190): load, reduce and indexed streams with elements not yet delivered. An ended or
faulted stream with buffered elements is covered as well (R169; assumption 14). -/
def Stream.guarded (r : Stream) : Bool := r.desc.mode != 1 && r.state != .free && r.state != .defined

/-- Do a store's bytes meet the `k` bytes at an exact address (R190), by virtual address or by physical address?
DEDUCED: assumption 14. -/
def State.meets (s : State) (w : Who) (va n : Nat) (l : Loc) (a : Int) (k : Nat) : Bool :=
  (a < va + n && va < a + k) ||
    (match vaOf a, l with
     | some ea, .phys pa _ =>
       (match s.check w { r := true, ctr := .allow } ea with
        | .ok (.phys q _) => decide (q < pa + n ∧ pa < q + k)
        | _ => false)
     | _, _ => false)
/-- Do a store's bytes meet those of element j, which has been fetched (R190), its index and the target of the index that was read
included? DEDUCED: assumption 14. -/
def State.hits (s : State) (w : Who) (r : Stream) (j : Nat) (va n : Nat) (l : Loc) : Bool :=
  let d := r.desc
  s.meets w va n l (d.element j) (if d.mode = 3 then d.indexSize else d.size) ||
    (d.mode == 3 && (match r.read.find? (·.1 == j) with | none => false | some x => s.meets w va n l (d.target x.2) d.size))

/-- Replace every copy of an element. -/
def replaceElem (a : Nat × Word) (l : List (Nat × Word)) : List (Nat × Word) := l.map fun e => if e.1 = a.1 then a else e
/-- The value of a pending element that has been read again replaces every copy, and the index is no longer pending (R190). -/
def Stream.replaced (r : Stream) (j : Nat) (index value : Nat) : Stream :=
  { r with pend := r.pend.filter (· != j), buf := replaceElem (j, BitVec.ofNat 64 value) r.buf,
           sent := replaceElem (j, BitVec.ofNat 64 value) r.sent, read := r.read.map fun x => if x.1 = j then (j, index) else x }
/-- Does a read leave something beside its value: the code bit of a page (R327), or a data error (R240)? -/
def State.leaves (s : State) (x : Word × Loc × Nat) : Bool := s.needsX x.2.1 || s.locPoisoned x.2.1 x.2.2
/-- The core reads a pending element of a stream at home again (R190, R193): the value replaces every copy; a fault leaves the stream
faulted there; a read that must wait, or that leaves something beside its value, leaves the index pending for the stream unit.
DEDUCED: assumption 14. -/
def State.rereadHome (s : State) (w : Who) (tid : Tid) (r : Stream) (j : Nat) : Stream :=
  if r.pend.contains j then
    match s.elementPath w tid r.desc j with
    | .ok l => if l.any s.leaves then r else r.replaced j (s.pathIndex l) (s.pathValue l)
    | .error (some e) => r.faultAt e j
    | .error none => r
  else r

/-- The pending entries after new hits (R190): past 16 they merge into one range from the lowest to the highest index fetched. An
answer on its way for an index that is hit again is stale. -/
def Stream.note (r : Stream) (hit : List Nat) : Stream :=
  let all := r.pend.filter (fun j => !hit.contains j) ++ hit
  let lo := all.foldl min (all.headD 0)
  { r with pend := if 16 < all.length then (((r.buf ++ r.sent).map (·.1)).filter (lo ≤ ·)) else all
           answers := r.answers.filter fun a => !hit.contains a.1 }

/-- The guard after a store of the task has performed (R190). An index that has been read for the next element is read again where the
store hit it. The fetched elements that the store hit become pending: a stream at the core re-reads them at once, one that is away
when its station has answered. DEDUCED: assumption 14. -/
def State.guard (s : State) (w : Who) (tid : Tid) (va n : Nat) (l : Loc) (r0 : Stream) : Stream :=
  if r0.guarded then
    let r := if r0.desc.mode == 3 && r0.index.isSome && s.meets w va n l (r0.desc.element r0.fidx) r0.desc.indexSize
      then { r0 with index := none } else r0
    let hit := if r.desc.reducing then [] else ((r.buf ++ r.sent).map (·.1)).filter fun j => s.hits w r j va n l
    if hit.isEmpty then r
    else
      let r1 := r.note hit
      if r.station.isSome then r1 else r1.pend.foldl (s.rereadHome w tid) r1
  else r0

/-- Run the guard of every stream of the executing task. -/
def State.guardAll (s : State) (va n : Nat) (l : Loc) : State :=
  s.setTask { s.task with streams := s.task.streams.map (s.guard s.task.who s.task.tid va n l) }

/-- A store to a SINV page is written through to the home L2 slice of the writer's die, which has ownership of the line before it
acknowledges, and then holds its dirty data (R146, R152). -/
def State.writeThrough (s : State) (die pa n : Nat) (e : Word) : State :=
  if pteMode e = 1 ∧ pteCtr e = false then
    (List.range (lineOf (pa + n - 1) - lineOf pa + 1)).foldl (fun s i => s.ownThrough die (lineOf pa + i)) s
  else s

/-! ### Stores that no release orders before a copy unit's read (R166) -/

/-- The aligned 8-byte words of an access: by physical address, those of scratch from 2^40. -/
def Loc.words (l : Loc) (n : Nat) : List Nat :=
  let first := match l with | .scratch k => 2 ^ 40 + k / 8 | .phys pa _ => pa / 8
  let at_ := match l with | .scratch k => k | .phys pa _ => pa
  (List.range ((at_ + n - 1) / 8 - at_ / 8 + 1)).map (first + ·)
/-- A word as it stands. -/
def State.wordAt (s : State) (key : Nat) : Nat :=
  if 2 ^ 40 ≤ key then s.scratch.read (8 * (key - 2 ^ 40)) 8 else s.mem.read (8 * key) 8
/-- A store that nothing orders joins the others: its words with what they hold, as one event where it is seen whole, else one for
each word. -/
def addStore (whole late : Bool) (ws : List (Nat × Nat)) (l : List OldWord) : List OldWord :=
  l ++ ws.mapIdx fun i x => { key := x.1, value := x.2, event := if whole then l.length else l.length + i, late := late }
/-- Has a command's window been read in part? -/
def Copy.midway (c : Copy) : Bool := c.windows.any fun w => w.row != 0 || w.col != 0
/-- A command of the executing task may see a store that the task is about to make, or not; one that is seen whole it does not see where
it has begun to read (R166, R167). -/
def Copy.noteOld (whole : Bool) (tid : Tid) (ws : List (Nat × Nat)) (c : Copy) : Copy :=
  if c.tid ≠ tid then c else { c with old := addStore whole (whole && c.midway) ws c.old }
/-- Keep what the words hold that the executing task is about to store to; `whole` says that the copy unit sees the store whole, as the
one that takes a single position in the coherence order (R167). DESIGN CHOICE: assumption 5. -/
def State.keepOld (s : State) (whole : Bool) (ls : List (Loc × Nat)) : State :=
  let ws := (ls.flatMap fun x => x.1.words x.2).map fun k => (k, s.wordAt k)
  let mine := (s.recent.filter (·.1 == s.task.tid)).map (·.2)
  let c := s.cluster s.task.cluster
  { s with recent := s.recent.filter (·.1 != s.task.tid) ++ (addStore whole false ws mine).map (s.task.tid, ·)
           clusters := if c.copies.any (·.tid == s.task.tid)
             then smapSet {} s.clusters s.task.cluster { c with copies := c.copies.map (Copy.noteOld whole s.task.tid ws) }
             else s.clusters }

/-- A store of `n` bytes of the executing task to a checked location (R94, R96, R97): the code store marks first, then the
bytes perform, then the guard answers. -/
def State.storeBytes (s : State) (va : Word) (l : Loc) (n v : Nat) : Except Stop State :=
  match l with
  | .scratch k => .ok ({ s with scratch := s.scratch.write k n v }.guardAll va.toNat n l)
  | .phys pa e =>
    match s.markRange s.task.tid s.task.die pa n with
    | none => .error (s.markWait pa)
    | some s1 => .ok (((s1.writeThrough s.task.die pa n e).poke pa n v).guardAll va.toNat n l)

/-- A plain store of the executing task. -/
def State.storeLoc (s : State) (va : Word) (l : Loc) (n v : Nat) : Except Stop State := (s.keepOld false [(l, n)]).storeBytes va l n v
/-- A store of the executing task that takes one position in the coherence order of all its bytes (R266). -/
def State.storeWhole (s : State) (va : Word) (l : Loc) (n v : Nat) : Except Stop State := (s.keepOld true [(l, n)]).storeBytes va l n v

/-- The location of a checked plain load of the executing task: alignment, R92 steps 2 to 4, the halter. -/
def State.loadLoc (s : State) (n : Want) (va : Word) (align : Nat) : Except Stop Loc := do
  need (va.toNat % align == 0) (Stop.alignment va)
  let l ← s.access { n with r := true } va
  s.notHaltered l
  .ok l
/-- A checked plain load of an operand record of the executing task; one with an uncorrectable error ends the instruction (R240). -/
def State.load (s : State) (n : Want) (va : Word) (bytes align : Nat) : Except Stop Nat := do
  let l ← s.loadLoc n va align
  need (!s.locPoisoned l bytes) (.data va l.pa)
  .ok (s.readLoc l bytes)

/-- The location of a checked plain store of the executing task. -/
def State.storeAt (s : State) (n : Want) (va : Word) (bytes : Nat) : Except Stop Loc := do
  need (va.toNat % bytes == 0) (Stop.alignment va)
  let l ← s.access { n with w := true } va
  s.notHaltered l
  .ok l

end Sys2Proof.Machine
end

