-- ==== Sys2Proof/Machine/Finish.lean ====
section
/-! DEFINITION. How an instruction ends: its effect, a trap, a stall, the park of a group on a demand-paging fault (R332), or the data
error of an operand record; and header word 2 of a context that lies in its area (R234). -/

namespace Sys2Proof.Machine

open Sys2Proof

/-! ### Header word 2 of a context area (R234, R236) -/

/-- The physical address of a context area, where the hardware can reach it. DESIGN CHOICE: assumption 15. -/
def State.headerPa (s : State) (t : Task) : Option Nat :=
  match s.check { t.who with sup := true, granted := none } { r := true, w := true } t.ctxa with
  | .ok (.phys pa _) => if t.ctxa.toNat % 64 = 0 then some pa else none
  | _ => none
/-- Do two contexts name one context area: one physical address, or where an area cannot be reached the same address of the same
address space? -/
def State.sameArea (s : State) (t u : Task) : Bool :=
  match s.headerPa t, s.headerPa u with
  | some p, some q => p == q
  | _, _ => t.ctxa == u.ctxa && t.aspace == u.aspace
/-- The hardware changes word 2 of the header of a context that lies in its area. -/
def State.reword (s : State) (tid : Tid) (f : Word → Word) : State :=
  match s.findTask tid with
  | none => s
  | some t =>
    if t.saved.isNone || t.cstate == .dumped then s
    else match s.headerPa t with
    | none => s
    | some pa => s.poke (pa + 16) 8 (f (BitVec.ofNat 64 (s.mem.read (pa + 16) 8))).toNat

/-! ### Parking (R332) -/

/-- Stop a task of a park set at its boundary (R332): parked in its slot, its stalled instruction abandoned; an uncommitted tile
access has rolled back. -/
def Task.park (t : Task) : Task :=
  if t.cstate = .running ∨ t.cstate = .waiting then { t with cstate := .parked, parked := true, wait := .none, tile := none, stored := none }
  else if t.cstate = .dumped ∨ t.cstate = .free then t
  else { t with parked := true }

/-- The park set of a task (R332): itself and the members of its groups. -/
def State.parkSet (s : State) (t : Task) : List Tid :=
  (s.tasks.filter fun u => u.tid == t.tid || u.groups.any t.groups.contains).map (·.tid)

/-- Add to the outstanding record of an ASID and page, or post a new one of type 1 (R333, R334). DEDUCED: assumption 55. -/
def State.pagingRecord (s : State) (tenant : BitVec 12) (tid : Tid) (asid : BitVec 12) (va : Word) (level : Nat)
    (code : BitVec 8) (pc : Word) (tids : List Tid) : State :=
  match s.paddock tenant with
  | none => s
  | some p =>
    let page := va.toNat / 4096
    s.modVf tenant p.ownVf fun v =>
      if v.paging.any (fun r => r.asid == asid && r.page == page) then
        { v with paging := v.paging.map fun r =>
            if r.asid == asid && r.page == page then { r with tids := r.tids ++ tids.filter (fun x => !r.tids.contains x) } else r }
      else
        { v.post 1 code tenant tid va pc (asid.setWidth 64) (BitVec.ofNat 64 level) with
            paging := v.paging ++ [{ seq := v.seq, asid := asid, page := page, tids := tids }] }

/-- Can a demand-paging fault be recorded now: an outstanding record takes it, or the buffer has room for a new one (R258, R333)?
DEDUCED: assumption 55. -/
def State.pagingRoom (s : State) (tenant : BitVec 12) (asid : BitVec 12) (va : Word) : Bool :=
  s.postRoom tenant || (match s.paddock tenant with
    | none => true
    | some p => (p.vf p.ownVf).paging.any fun r => r.asid == asid && r.page == va.toNat / 4096)
/-- A stall begins at the executing task. -/
def State.pause (s : State) (w : Wait) : State := s.setTask { s.task with cstate := .waiting, wait := w }

/-- The demand-paging fault of the executing task (R332): the park set stops, a record is posted, and the header of a context that lies
in its area shows the park. It stalls while the record finds no room (R258). DEDUCED: assumption 55. -/
def State.parkGroup (s : State) (va : Word) (level : Nat) (code : BitVec 8) : State :=
  let t := s.task
  if s.pagingRoom t.tenant (t.aspace.extractLsb' 52 12) va = false then s.pause .retry else
  let set := s.parkSet t
  let s0 := (s.tasks.filter fun u => set.contains u.tid && (u.cstate == .running || u.cstate == .waiting)).foldl State.letGo s
  let s1 := s0.pagingRecord t.tenant t.tid (t.aspace.extractLsb' 52 12) va level code t.pc set
  let s2 : State := { s1 with task := s1.task.park, others := s1.others.map fun u => if set.contains u.tid then u.park else u }
  set.foldl (fun s u => s.reword u fun w => w ||| 0x80000) s2


/-! ### Turns at a mailbox and at a stage queue (R266, R280, R294) -/

/-- Change the binding of a line. -/
def State.modMailbox (s : State) (pa : Nat) (f : Mailbox → Mailbox) : State :=
  { s with mailboxes := s.mailboxes.map fun m => if m.pa == pa then f m else m }
/-- Change one stage of a kernel, and a kernel of a paddock. -/
def Kernel.modStage (k : Kernel) (g : Nat) (f : Stage → Stage) : Kernel := { k with stages := k.stages.modify g f }
def Kernel.stage (k : Kernel) (g : Nat) : Stage := k.stages.getD g { handler := 0, cap := 0, min := 0, max := 0, twin := 0 }
def State.modKernel (s : State) (tenant : BitVec 12) (kid : BitVec 6) (f : Kernel → Kernel) : State :=
  s.modPaddock tenant fun p => p.setKernel kid (f (p.kernel kid))

/-- Is a task at a stall, or executing again the instruction that stalled? -/
def Task.stalls (t : Task) : Bool := t.cstate == .waiting || t.cstate == .running
/-- Does a trigger that has come to a mailbox still wait there (R266)? One whose task has abandoned its instruction, or whose command
is gone, does not. -/
def State.mailWaits (s : State) (pa : Nat) : Waiter → Bool
  | .task tid => s.tasks.any fun t => t.tid == tid && t.stalls && t.wait == .send pa
  | .copy c tid desc => (s.cluster c).copies.any fun x => x.tid == tid && x.descVa == desc
  | .vf _ => false
/-- Does a post that has come to a stage queue still wait there (R280, R282, R286)? -/
def State.postWaits (s : State) (tenant : BitVec 12) (kid : BitVec 6) (g : Nat) : Waiter → Bool
  | .task tid => s.tasks.any fun t => t.tid == tid && t.tenant == tenant && t.stalls && t.wait == .post kid g false
  | .vf v => match s.paddock tenant with
    | some p => (p.vf v).stalled == some (kid, (p.kernel kid).gen)
    | none => false
  | .copy _ _ _ => false
/-- Is it the turn of one of those that come to a home: does no other that came before still wait there? -/
def turnOf (l : List Waiter) (waits : Waiter → Bool) (w : Waiter) : Bool := (l.find? waits).all (· == w)
/-- Those that wait, with one that joins them. -/
def joinTurn (l : List Waiter) (waits : Waiter → Bool) (w : Waiter) : List Waiter :=
  let l := l.filter waits
  if l.contains w then l else l ++ [w]
/-- A trigger, or a post, that has to wait takes its place behind those that wait already. -/
def State.awaitMail (s : State) (pa : Nat) (w : Waiter) : State :=
  s.modMailbox pa fun m => { m with waiters := joinTurn m.waiters (s.mailWaits pa) w }
def State.awaitPost (s : State) (tenant : BitVec 12) (kid : BitVec 6) (g : Nat) (w : Waiter) : State :=
  s.modKernel tenant kid fun k => k.modStage g fun x => { x with waiters := joinTurn x.waiters (s.postWaits tenant kid g) w }
/-- May a trigger go on at a mailbox line (R266): the binding holds no activation in delivery, and no trigger came before? -/
def State.mailFree (s : State) (pa : Nat) (w : Waiter) : Bool :=
  match s.mailboxes.find? (·.pa == pa) with
  | none => true
  | some m => m.pending.isEmpty && turnOf m.waiters (s.mailWaits pa) w
/-- May a post go on at a stage queue (R280, R294): has the queue room, and did no post come before? -/
def State.postFree (s : State) (tenant : BitVec 12) (kid : BitVec 6) (g : Nat) (w : Waiter) : Bool :=
  match s.paddock tenant with
  | none => true
  | some p =>
    let x := (p.kernel kid).stage g
    decide (x.queue.length < x.cap) && turnOf x.waiters (s.postWaits tenant kid g) w

/-! ### The end of an instruction -/

/-- A wait for a frame in transit counts from the arrival of its request (R344): one that was held already keeps its place. -/
def Wait.begin (old : Wait) (clk : Nat) : Wait → Wait
  | .transit k held _ => .transit k held (match old with | .transit k1 _ c => if k1 = k then c else clk | _ => clk)
  | w => w
/-- A stall begins (R237); at a mailbox or a stage queue the task takes its place among those that wait. DEDUCED: assumption 43. -/
def State.stall (s : State) (w : Wait) : State :=
  let s1 := match w with
    | .send pa => s.awaitMail pa (.task s.task.tid)
    | .post kid g _ => s.awaitPost s.task.tenant kid g (.task s.task.tid)
    | _ => s
  s1.pause (s.task.wait.begin s.clk w)

/-- Would an instruction send its result through a port that is not bound (R261 step 1)? The d position of ST is a source. -/
def State.unbound (s : State) (i : Instr) : Bool :=
  i.ops.x.pd && !(match i with | .st _ => true | _ => false) && !((s.task.port (i.ops.d.setWidth 2)).pb.getLsbD 63)

/-- An operand record has an uncorrectable error: the instruction goes no further than its issue, and the data error is taken at the
next boundary (R240). DEDUCED: assumption 22. -/
def State.spoilt (s : State) (o : Ops) (va : Word) (pa : Nat) : State :=
  let s1 := (s.take o).advance o
  s1.setTask { s1.task with dataErr := some (va, s.task.pc, pa) }

/-- End of an instruction: its effect, or the trap it takes, the stall or the park it ends in. An instruction whose destination port is
not bound traps at issue, whatever it would wait for (R261).
DEDUCED: assumption 41. DEDUCED: assumption 43. -/
def State.finish (s : State) (i : Instr) (r : Except Stop State) : State :=
  match r with
  | .ok t => t
  | .error (.trap t) => s.trap (trapWord t i.word)
  | .error (.wait w) => if s.unbound i then s.trap (trapWord { kind := 2 } i.word) else s.stall w
  | .error (.park va level code) => s.parkGroup va level code
  | .error (.data va pa) => s.spoilt i.ops va pa
  | .error (.partly t w) => t.stall w

/-- The outcome of an instruction with the given body. -/
def State.run (s : State) (i : Instr) (r : Except Stop State) : Host.Outcome State Fault Refusal := .next (s.finish i r)

end Sys2Proof.Machine
end

