-- ==== Sys2Proof/Machine/Flags.lean ====
section
/-! DEFINITION. Flags (R39) and the integer results that raise them: values of an integer type (R22, R76), wrapping and
clamping (R23). -/

namespace Sys2Proof.Machine

open Sys2Proof

/-- The flag bits of FSR (R39). -/
def flagNX : BitVec 6 := 1
def flagUF : BitVec 6 := 2
def flagOF : BitVec 6 := 4
def flagDZ : BitVec 6 := 8
def flagNV : BitVec 6 := 16
def flagSAT : BitVec 6 := 32

/-- A flag set where a condition holds. -/
def flagIf (c : Bool) (f : BitVec 6) : BitVec 6 := if c then f else 0

/-- Width and signedness of an integer tag (R22); 0x00 means I64 (R76). -/
def Fmt.width : Fmt → Nat
  | .i4 | .n4 => 4 | .i8 | .n8 => 8 | .i16 | .n16 => 16 | .i32 | .n32 => 32 | _ => 64
def Fmt.signed : Fmt → Bool | .n4 | .n8 | .n16 | .n32 | .n64 => false | _ => true

/-- Value of the low W bits of `x` as an integer of the type (R76). -/
def valOf (t : Fmt) (x : Nat) : Int :=
  let w := Fmt.width t
  let y := x % 2 ^ w
  if Fmt.signed t && decide (2 ^ (w - 1) ≤ y) then (y : Int) - 2 ^ w else y

/-- Ends of the range of an integer type. -/
def loOf (t : Fmt) : Int := if Fmt.signed t then -2 ^ (Fmt.width t - 1) else 0
def hiOf (t : Fmt) : Int := if Fmt.signed t then 2 ^ (Fmt.width t - 1) - 1 else 2 ^ Fmt.width t - 1

/-- Clamp to a range. -/
def clampInt (lo hi x : Int) : Int := if x < lo then lo else if hi < x then hi else x

/-- The W bits of an exact result: wrapped modulo 2^W, or clamped with SAT where the clamp changes it (R23). -/
def narrow (t : Fmt) (sat : Bool) (r : Int) : Nat × BitVec 6 :=
  let w := Fmt.width t
  if sat then
    let c := clampInt (loOf t) (hiOf t) r
    ((c % 2 ^ w).toNat, flagIf (decide (c ≠ r)) flagSAT)
  else ((r % 2 ^ w).toNat, 0)

/-- A W-bit result widened to 64 bits by its type (R76). -/
def extend (t : Fmt) (x : Nat) : BitVec 64 := BitVec.ofInt 64 (valOf t x)

end Sys2Proof.Machine
end

