-- ==== Sys2Proof/Machine/Float.lean ====
section
/-! DEFINITION. Floating-point and block formats (R24 to R31), rounding with its flags (R34 to R37, R27), conversions (R41 to
R43), and the exact operations that are rounded once. A finite number is (−1)^neg · m · 2^e. -/

namespace Sys2Proof.Machine

open Sys2Proof

/-- A number of any format, exactly. -/
inductive FNum where
  | nan (signalling : Bool)
  | inf (neg : Bool)
  | fin (neg : Bool) (m : Nat) (e : Int)
deriving DecidableEq, Repr

/-- How a format ends: infinities and NaNs at the top exponent, the two NaN codes of E4M3, or nothing (E2M1) (R24, R25). -/
inductive FTop where | ieee | e4m3 | e2m1
deriving DecidableEq, Repr

/-- A floating-point format: exponent bits, mantissa bits, bias (R24). -/
structure FFmt where
  ebits : Nat
  mbits : Nat
  bias  : Int
  top   : FTop
deriving DecidableEq, Repr

/-- The format of a floating tag. -/
def ffmt : Fmt → FFmt
  | .fp16 => { ebits := 5, mbits := 10, bias := 15, top := .ieee }
  | .bf16 => { ebits := 8, mbits := 7, bias := 127, top := .ieee }
  | .e5m2 => { ebits := 5, mbits := 2, bias := 15, top := .ieee }
  | .e4m3 => { ebits := 4, mbits := 3, bias := 7, top := .e4m3 }
  | .e2m1 => { ebits := 2, mbits := 1, bias := 1, top := .e2m1 }
  | _ => { ebits := 8, mbits := 23, bias := 127, top := .ieee }

/-- Tags whose elements are floating-point numbers. -/
def Fmt.isFp : Fmt → Bool | .fp32 | .fp16 | .bf16 | .e4m3 | .e5m2 | .e2m1 => true | _ => false

/-- Magnitude bits of the largest finite number (R24). -/
def FFmt.maxBits (f : FFmt) : Nat :=
  match f.top with
  | .ieee => (2 ^ f.ebits - 1) * 2 ^ f.mbits - 1
  | .e4m3 => 2 ^ (f.ebits + f.mbits) - 2
  | .e2m1 => 2 ^ (f.ebits + f.mbits) - 1
/-- Magnitude bits of an infinity, of the canonical NaN (R26). -/
def FFmt.infBits (f : FFmt) : Nat := (2 ^ f.ebits - 1) * 2 ^ f.mbits
def FFmt.nanBits (f : FFmt) : Nat :=
  match f.top with
  | .ieee => (2 ^ f.ebits - 1) * 2 ^ f.mbits + 2 ^ (f.mbits - 1)
  | .e4m3 => 2 ^ (f.ebits + f.mbits) - 1
  | .e2m1 => 0
/-- Bits with a sign. -/
def FFmt.signed (f : FFmt) (neg : Bool) (mag : Nat) : Nat := mag + if neg then 2 ^ (f.ebits + f.mbits) else 0

/-- The number that bits hold (R24, R25). -/
def FFmt.decode (f : FFmt) (x : Nat) : FNum :=
  let neg := x.testBit (f.ebits + f.mbits)
  let e := x / 2 ^ f.mbits % 2 ^ f.ebits
  let m := x % 2 ^ f.mbits
  let q : Int := 1 - f.bias - f.mbits
  if f.top = .ieee ∧ e = 2 ^ f.ebits - 1 then
    if m = 0 then .inf neg else .nan (!m.testBit (f.mbits - 1))
  else if f.top = .e4m3 ∧ e = 15 ∧ m = 7 then .nan false
  else if e = 0 then .fin neg m q
  else .fin neg (2 ^ f.mbits + m) (q + e - 1)

/-- Is a dropped part rounded up in magnitude (R34, R37)? `rem` of `2 ^ k` is dropped, `odd` says that the kept part is
odd. -/
def roundUp (mode : Rm) (draw : BitVec 16) (neg odd : Bool) (rem k : Nat) : Bool :=
  match mode with
  | .rne => decide (2 ^ k < 2 * rem) || (decide (2 * rem = 2 ^ k) && odd)
  | .rz => false
  | .rd => neg && decide (rem ≠ 0)
  | .ru => !neg && decide (rem ≠ 0)
  | .rs => decide (draw.toNat < rem * 2 ^ 16 / 2 ^ k)

/-- m · 2^e rounded to a multiple of 2^q: the multiple and whether it is inexact. -/
def quantum (mode : Rm) (draw : BitVec 16) (neg : Bool) (m : Nat) (e q : Int) : Nat × Bool :=
  if q ≤ e then (m * 2 ^ (e - q).toNat, false)
  else
    let k := (q - e).toNat
    let t := m / 2 ^ k
    let rem := m % 2 ^ k
    (t + (if roundUp mode draw neg (t % 2 == 1) rem k then 1 else 0), decide (rem ≠ 0))

/-- a · 2^i < b · 2^j. -/
def scaledLt (a : Nat) (i : Int) (b : Nat) (j : Int) : Bool :=
  if i ≤ j then decide (a < b * 2 ^ (j - i).toNat) else decide (a * 2 ^ (i - j).toNat < b)

/-- Round an exact finite number into a format, with NX, UF (R27) and OF (R36). -/
def FFmt.round (f : FFmt) (mode : Rm) (draw : BitVec 16) (neg : Bool) (m : Nat) (e : Int) : Nat × BitVec 6 :=
  if m = 0 then (f.signed neg 0, 0)
  else
    let low : Int := 1 - f.bias - f.mbits
    let free : Int := e + m.log2 - f.mbits
    let q : Int := if free < low then low else free
    let (t, inexact) := quantum mode draw neg m e q
    let (u, _) := quantum mode draw neg m e free
    let mag := (q - low).toNat * 2 ^ f.mbits + t
    if f.maxBits < mag then
      -- overflow
      (f.signed neg
        (match f.top with
         | .ieee =>
           (match mode with
            | .rne | .rs => f.infBits
            | .rz => f.maxBits
            | .rd => if neg then f.infBits else f.maxBits
            | .ru => if neg then f.maxBits else f.infBits)
         | _ => f.maxBits), flagOF ||| flagNX)
    else
      let tiny := scaledLt u free 1 (1 - f.bias)
      (f.signed neg mag, flagIf inexact flagNX ||| flagIf (tiny && inexact) flagUF)

/-- Convert a number into a floating format (R41, R36). -/
def FFmt.ofNum (f : FFmt) (mode : Rm) (draw : BitVec 16) (x : FNum) : Nat × BitVec 6 :=
  match x with
  | .nan s => (f.nanBits, if f.top = .e2m1 then flagNV else flagIf s flagNV)
  | .inf neg => if f.top = .ieee then (f.signed neg f.infBits, 0) else (f.signed neg f.maxBits, flagOF ||| flagNX)
  | .fin neg m e => f.round mode draw neg m e

/-- The result of an operation already known to be NaN, with NV where `nv` holds (R26). -/
def FFmt.nan (f : FFmt) (nv : Bool) : Nat × BitVec 6 := (f.nanBits, flagIf nv flagNV)

def FNum.isNan : FNum → Bool | .nan _ => true | _ => false
def FNum.isSnan : FNum → Bool | .nan s => s | _ => false
def FNum.isInf : FNum → Bool | .inf _ => true | _ => false
def FNum.isZero : FNum → Bool | .fin _ m _ => m == 0 | _ => false
def FNum.neg : FNum → FNum | .nan s => .nan s | .inf n => .inf (!n) | .fin n m e => .fin (!n) m e
def FNum.sign : FNum → Bool | .nan _ => false | .inf n => n | .fin n _ _ => n

/-- Value of a finite number as an integer multiple of 2^q, q at most its exponent. -/
def FNum.units (q : Int) : FNum → Int
  | .fin n m e => (if n then -1 else 1) * ((m * 2 ^ (e - q).toNat : Nat) : Int)
  | _ => 0
def FNum.exp : FNum → Int | .fin _ _ e => e | _ => 0

/-- The number z · 2^q; `neg0` is the sign of a zero. -/
def ofUnits (z q : Int) (neg0 : Bool) : FNum := .fin (if z = 0 then neg0 else decide (z < 0)) z.natAbs q

/-- Exact product of two finite numbers. -/
def mulFin (a b : FNum) : FNum :=
  match a, b with
  | .fin n m e, .fin n' m' e' => .fin (n != n') (m * m') (e + e')
  | _, _ => .nan false

/-- Exact sum of two finite numbers; an exact zero of opposite signs is +0 (R104, R123). -/
def addFin (a b : FNum) : FNum :=
  let q := min a.exp b.exp
  ofUnits (a.units q + b.units q) q (a.sign && b.sign && a.isZero && b.isZero)

/-- Product of two numbers (R123): NV for 0 × ∞ and a signalling NaN. -/
def mulNum (a b : FNum) : FNum × Bool :=
  let s := a.isSnan || b.isSnan
  if a.isNan || b.isNan then (.nan false, s)
  else if (a.isInf && b.isZero) || (a.isZero && b.isInf) then (.nan false, true)
  else if a.isInf || b.isInf then (.inf (a.sign != b.sign), false)
  else (mulFin a b, false)

/-- Sum of two numbers (R123): NV for ∞ − ∞ and a signalling NaN. -/
def addNum (a b : FNum) : FNum × Bool :=
  let s := a.isSnan || b.isSnan
  if a.isNan || b.isNan then (.nan false, s)
  else if a.isInf && b.isInf then (if a.sign = b.sign then (a, false) else (.nan false, true))
  else if a.isInf then (a, false) else if b.isInf then (b, false)
  else (addFin a b, false)

/-- a × b + c, exactly; NV for 0 × ∞ even when c is a quiet NaN (R124). -/
def fmaNum (a b c : FNum) : FNum × Bool :=
  let (p, nv) := mulNum a b
  let (r, nv2) := addNum p c
  (r, nv || nv2)

/-- Round an operation's exact result once in .rne. -/
def FFmt.result (f : FFmt) (r : FNum × Bool) : Nat × BitVec 6 :=
  let (x, fl) := f.ofNum .rne 0 r.1
  (x, fl ||| flagIf r.2 flagNV)

/-- A quotient to enough bits with a sticky last bit, so that one rounding of it is the rounding of the exact quotient. -/
def divSticky (a b : Nat) : Nat × Int :=
  let k := 128 + b.log2
  (2 * (a * 2 ^ k / b) + (if a * 2 ^ k % b = 0 then 0 else 1), -(k : Int) - 1)

/-- Division (R123). -/
def divNum (a b : FNum) : FNum × BitVec 6 :=
  if a.isNan || b.isNan then (.nan false, flagIf (a.isSnan || b.isSnan) flagNV)
  else if (a.isInf && b.isInf) || (a.isZero && b.isZero) then (.nan false, flagNV)
  else if a.isInf then (.inf (a.sign != b.sign), 0)
  else if b.isInf then (.fin (a.sign != b.sign) 0 0, 0)
  else if b.isZero then (.inf (a.sign != b.sign), flagDZ)
  else match a, b with
  | .fin n m e, .fin n' m' e' =>
    let (q, k) := divSticky m m'
    if m = 0 then (.fin (n != n') 0 0, 0) else (.fin (n != n') q (e - e' + k), 0)
  | _, _ => (.nan false, 0)

/-- Integer square root by digits, most significant first. -/
def isqrtFrom : Nat → Nat → Nat → Nat
  | 0, _, r => r
  | k + 1, n, r => isqrtFrom k n (if (r + 2 ^ k) * (r + 2 ^ k) ≤ n then r + 2 ^ k else r)
def isqrt (n : Nat) : Nat := isqrtFrom (n.log2 / 2 + 1) n 0

/-- Square root of m · 2^e, sticky. -/
def sqrtSticky (m : Nat) (e : Int) : Nat × Int :=
  let k : Nat := if e % 2 = 0 then 256 else 257
  let x := m * 2 ^ k
  let r := isqrt x
  (2 * r + (if r * r = x then 0 else 1), (e - k) / 2 - 1)

/-- 1 ÷ √(m · 2^e), sticky. -/
def rsqrtSticky (m : Nat) (e : Int) : Nat × Int :=
  let m' := if e % 2 = 0 then m else 2 * m
  let e' := if e % 2 = 0 then e else e - 1
  let n := 256 + m'.log2
  let r := isqrt (2 ^ (2 * n) / m')
  (2 * r + (if r * r * m' = 2 ^ (2 * n) then 0 else 1), -(n : Int) - e' / 2 - 1)

/-! ### Transcendental functions (R133), in fixed point with 320 fraction bits; the last bit of a result is sticky. The
functions' values at the operands of the three formats are irrational but for the cases named, and lie farther from a
rounding boundary than the error of the computation (DEDUCED, assumption 10). -/

/-- DEDUCED: assumption 10. -/
def fixBits : Nat := 320
/-- Σ 1 ÷ (k 2^k) from k = n down to 1: ln 2. -/
def ln2Sum : Nat → Nat
  | 0 => 0
  | k + 1 => ln2Sum k + 2 ^ fixBits / ((k + 1) * 2 ^ (k + 1))
def ln2Fix : Nat := ln2Sum 330
/-- Σ r^i ÷ i!, by Horner from the n-th term. -/
def expSum (r : Nat) : Nat → Nat → Nat
  | 0, acc => acc
  | n + 1, acc => expSum r n (2 ^ fixBits + acc * r / 2 ^ fixBits / (n + 1))
/-- e^x for x = z ÷ 2^fixBits: (mantissa, n) with e^x = mantissa ÷ 2^fixBits · 2^n. -/
def expFix (z : Int) : Nat × Int :=
  let n := z / (ln2Fix : Int)
  (expSum (z - n * ln2Fix).toNat 90 (2 ^ fixBits), n)
/-- Σ z^(2i+1) ÷ (2i+1) for i below n. -/
def atanhSum (z z2 : Nat) : Nat → Nat → Nat → Nat
  | 0, _, _ => 0
  | n + 1, i, p => p / (2 * i + 1) + atanhSum z z2 n (i + 1) (p * z2 / 2 ^ fixBits)
/-- ln y for y = a ÷ 2^fixBits, 1 ≤ y < 2. -/
def lnFix (a : Nat) : Nat :=
  let z := (a - 2 ^ fixBits) * 2 ^ fixBits / (a + 2 ^ fixBits)
  2 * atanhSum z (z * z / 2 ^ fixBits) 110 0 z
/-- m · 2^e as a fixed-point integer. -/
def toFix (neg : Bool) (m : Nat) (e : Int) : Int :=
  let x : Nat := if -(fixBits : Int) ≤ e then m * 2 ^ (e + fixBits).toNat else m / 2 ^ (-(e + fixBits)).toNat
  if neg then -(x : Int) else x
/-- The number just above (or below) v = m · 2^e. -/
def justOff (neg : Bool) (m : Nat) (e : Int) (above : Bool) : FNum :=
  .fin neg (if above then m * 2 ^ 400 + 1 else m * 2 ^ 400 - 1) (e - 400)
/-- Top bit position of m · 2^e. -/
def topBit (m : Nat) (e : Int) : Int := e + m.log2

/-- 2^x. DEDUCED: assumption 10. -/
def exp2Num (neg : Bool) (m : Nat) (e : Int) : FNum :=
  if m = 0 then .fin false 1 0
  else if 12 < topBit m e then (if neg then .fin false 1 (-10000) else .fin false 3 10000)
  else if topBit m e < -100 then justOff false 1 0 (!neg)
  else if 0 ≤ e ∨ m % 2 ^ (-e).toNat = 0 then
    .fin false 1 (if neg then -(m * 2 ^ e.toNat / 2 ^ (-e).toNat : Nat) else (m * 2 ^ e.toNat / 2 ^ (-e).toNat : Nat))
  else
    let z := toFix neg m e
    let n := z / 2 ^ fixBits
    let r := (z - n * 2 ^ fixBits).toNat * ln2Fix / 2 ^ fixBits
    .fin false (2 * expSum r 90 (2 ^ fixBits) + 1) (n - fixBits - 1)
/-- log2 x for x > 0. DEDUCED: assumption 10. -/
def log2Num (m : Nat) (e : Int) : FNum :=
  let n : Int := topBit m e
  if m = 2 ^ m.log2 then .fin (decide (n < 0)) n.natAbs 0
  else
    let a := m * 2 ^ (fixBits - m.log2)
    let l := (lnFix a * 2 ^ fixBits / ln2Fix : Nat)
    let z : Int := n * 2 ^ fixBits + l
    .fin (decide (z < 0)) (2 * z.natAbs + 1) (-(fixBits : Int) - 1)
/-- tanh x. DEDUCED: assumption 10. -/
def tanhNum (neg : Bool) (m : Nat) (e : Int) : FNum :=
  if m = 0 then .fin neg 0 0
  else if topBit m e < -60 then justOff neg m e false
  else if 6 < topBit m e then justOff neg 1 0 false
  else
    let (a, n) := expFix (2 * toFix false m e)
    let y := a * 2 ^ n.toNat
    .fin neg (2 * ((y - 2 ^ fixBits) * 2 ^ fixBits / (y + 2 ^ fixBits)) + 1) (-(fixBits : Int) - 1)
/-- 1 ÷ (1 + e^−x). DEDUCED: assumption 10. -/
def sigmNum (neg : Bool) (m : Nat) (e : Int) : FNum :=
  if m = 0 then .fin false 1 (-1)
  else if topBit m e < -100 then justOff false 1 (-1) (!neg)
  else if 12 < topBit m e then (if neg then .fin false 1 (-10000) else justOff false 1 0 false)
  else
    let (a, n) := expFix (toFix neg m e)
    -- e^x = a · 2^(n − fixBits); the result is e^x ÷ (1 + e^x)
    if 0 ≤ n then
      let y := a * 2 ^ n.toNat
      .fin false (2 * (y * 2 ^ fixBits / (y + 2 ^ fixBits)) + 1) (-(fixBits : Int) - 1)
    else
      let d := 2 ^ fixBits * 2 ^ (-n).toNat + a
      .fin false (2 * (a * 2 ^ (fixBits + (-n).toNat) / d) + 1) (n - fixBits - 1)

/-- A special function of R133 with its special cases. DEDUCED: assumption 10. -/
def sfNum (k : SfFn) (x : FNum) : FNum × BitVec 6 :=
  match x with
  | .nan s => (.nan false, flagIf s flagNV)
  | .inf neg =>
    match k with
    | .rcp => (.fin neg 0 0, 0)
    | .sqrt => if neg then (.nan false, flagNV) else (.inf false, 0)
    | .rsqrt => if neg then (.nan false, flagNV) else (.fin false 0 0, 0)
    | .exp2 => if neg then (.fin false 0 0, 0) else (.inf false, 0)
    | .log2 => if neg then (.nan false, flagNV) else (.inf false, 0)
    | .tanh => (.fin neg 1 0, 0)
    | .sigm => if neg then (.fin false 0 0, 0) else (.fin false 1 0, 0)
  | .fin neg m e =>
    match k with
    | .rcp => if m = 0 then (.inf neg, flagDZ) else (.fin neg (divSticky 1 m).1 ((divSticky 1 m).2 - e), 0)
    | .sqrt =>
      if m = 0 then (.fin neg 0 0, 0) else if neg then (.nan false, flagNV)
      else (.fin false (sqrtSticky m e).1 (sqrtSticky m e).2, 0)
    | .rsqrt =>
      if m = 0 then (.inf neg, flagDZ) else if neg then (.nan false, flagNV)
      else (.fin false (rsqrtSticky m e).1 (rsqrtSticky m e).2, 0)
    | .exp2 => (exp2Num neg m e, 0)
    | .log2 => if m = 0 then (.inf true, flagDZ) else if neg then (.nan false, flagNV) else (log2Num m e, 0)
    | .tanh => (tanhNum neg m e, 0)
    | .sigm => (sigmNum neg m e, 0)

/-! ### Comparison, minimum and maximum -/

/-- a < b of numbers that are not NaN; −0 equals +0. -/
def ltNum (a b : FNum) : Bool :=
  match a, b with
  | .inf n, .inf n' => n && !n'
  | .inf n, _ => n
  | _, .inf n => !n
  | _, _ => let q := min a.exp b.exp; decide (a.units q < b.units q)
/-- Equality of value. -/
def eqNum (a b : FNum) : Bool := !a.isNan && !b.isNan && !ltNum a b && !ltNum b a

/-- Floating minimum or maximum (R123): −0 below +0, the number where one is a NaN. -/
def FFmt.minmax (f : FFmt) (greatest : Bool) (x y : Nat) : Nat × BitVec 6 :=
  let a := f.decode x
  let b := f.decode y
  let nv := flagIf (a.isSnan || b.isSnan) flagNV
  if a.isNan && b.isNan then (f.nanBits, nv)
  else if a.isNan then (y, nv) else if b.isNan then (x, nv)
  else
    let less := ltNum a b || (!ltNum b a && a.sign && !b.sign)
    (if less != greatest then x else y, nv)

/-! ### Block formats (R28 to R31, R43) -/

/-- Twice the magnitude of an element code's low three bits by element type: E2M1 (MXFP4 and OB4 type 1), power of two,
hybrid (R30). -/
def elemTwice (ty : Nat) (c : Nat) : Nat :=
  if ty = 1 then (if c = 0 then 0 else if c = 1 then 1 else if c = 2 then 2 else if c = 3 then 3 else if c = 4 then 4
    else if c = 5 then 6 else if c = 6 then 8 else 12)
  else if ty = 2 then (if c = 0 then 0 else 2 ^ c)
  else (if c = 0 then 0 else if c = 1 then 2 else if c = 2 then 4 else if c = 3 then 6 else if c = 4 then 8
    else if c = 5 then 12 else if c = 6 then 16 else 24)

/-- Scale exponent of a block scale byte, and the element type (0 to 3); none for a NaN block (R28 to R30). -/
def scaleOf (t : Fmt) (x : BitVec 8) : Option (Int × Nat) :=
  if t = .mxfp4 then (if x = 0xFF then none else some ((x.toNat : Int) - 127, 1))
  else if x.toNat % 64 = 63 then none else some ((x.toNat % 64 : Nat) - 31, x.toNat / 64)

/-- Value of a block element (R29, R30). -/
def blockElem (t : Fmt) (x : BitVec 8) (c : Nat) : FNum :=
  match scaleOf t x with
  | none => .nan false
  | some (k, ty) =>
    if ty = 0 then (if c < 8 then .fin false c k else .fin true (16 - c) k)
    else .fin (c.testBit 3) (elemTwice ty (c % 8)) (k - 1)

/-- emax of an element type (R43). -/
def blockEmax (t : Fmt) (ty : Nat) : Int := if t = .mxfp4 then 2 else if ty = 2 then 6 else if ty = 3 then 3 else 2

/-- Largest code whose doubled magnitude is at most z · 2^q (for types 1 to 3). -/
def elemBelow (ty z : Nat) (q : Int) : Nat → Nat
  | 0 => 0
  | c + 1 => if scaledLt z q (elemTwice ty (c + 1)) 0 then elemBelow ty z q c else c + 1

/-- Doubled magnitude beyond the largest element, with the exponent unbounded (R43). -/
def elemNext (ty : Nat) : Nat := if ty = 1 then 16 else if ty = 2 then 256 else 32

/-- Is m · 2^e, between lo and hi (doubled magnitudes), rounded to hi? -/
def blockUp (mode : Rm) (draw : BitVec 16) (neg odd : Bool) (m : Nat) (e : Int) (lo hi : Nat) : Bool :=
  -- the residual in units of 2^e (or of 1 where e ≥ 0): num ÷ den
  let k := (-e).toNat
  let num := m * 2 ^ e.toNat - lo * 2 ^ k
  let den := (hi - lo) * 2 ^ k
  match mode with
  | .rne => decide (den < 2 * num) || (decide (2 * num = den) && odd)
  | .rz => false
  | .rd => neg && decide (num ≠ 0)
  | .ru => !neg && decide (num ≠ 0)
  | .rs => decide (draw.toNat < num * 2 ^ 16 / den)

/-- Round v ÷ scale into an element code (R43): the code and its flags. `clamped` says that the scale was clamped to its
largest code. -/
def blockRound (ty : Nat) (mode : Rm) (draw : BitVec 16) (clamped neg : Bool) (m : Nat) (e : Int) : Nat × BitVec 6 :=
  let clampFlags := if clamped then flagOF ||| flagNX else flagNX
  if ty = 0 then
    -- signed integers −8 to 7
    let (t, inexact) := quantum mode draw neg m e 0
    if neg then
      if 8 < t then (8, clampFlags)
      else ((16 - t) % 16, flagIf inexact flagNX ||| flagIf (decide (t = 0 ∧ m ≠ 0)) flagUF)
    else if 7 < t then (7, clampFlags)
    else (t, flagIf inexact flagNX ||| flagIf (decide (t = 0 ∧ m ≠ 0)) flagUF)
  else
    let sign := if neg then 8 else 0
    -- doubled magnitude m · 2^(e+1)
    let c := elemBelow ty m (e + 1) 7
    let lo := elemTwice ty c
    let hi := if c = 7 then elemNext ty else elemTwice ty (c + 1)
    if c = 7 ∧ scaledLt m (e + 1) hi 0 = false then (sign + 7, clampFlags)
    else
      let inexact := scaledLt lo 0 m (e + 1)
      let up := inexact && blockUp mode draw neg (c % 2 == 1) m (e + 1) lo hi
      if up && c == 7 then (sign + 7, clampFlags)
      else
        let r := if up then c + 1 else c
        (sign + r, flagIf inexact flagNX ||| flagIf (decide (r = 0 ∧ m ≠ 0)) flagUF)

/-- Greatest top bit of the finite nonzero magnitudes of a list. -/
def amaxBit : List FNum → Option Int
  | [] => none
  | .fin _ m e :: l =>
    if m = 0 then amaxBit l else some (match amaxBit l with | none => topBit m e | some b => max b (topBit m e))
  | _ :: l => amaxBit l

/-- Convert 32 values to one block (R43): the scale byte, the codes in order, the flags. `draws` holds each element's
draw. -/
def toBlock (t : Fmt) (ty : Nat) (mode : Rm) (draws : List (BitVec 16)) (vs : List FNum) : BitVec 8 × List Nat × BitVec 6 :=
  if vs.any (fun v => v.isNan || v.isInf) then
    ((if t = .mxfp4 then 0xFF else BitVec.ofNat 8 (64 * ty + 63)), vs.map (fun _ => 0),
      flagIf (vs.any fun v => v.isInf || v.isSnan) flagNV)
  else
    let k : Int := match amaxBit vs with | none => 0 | some b => b - blockEmax t ty
    let bias : Int := if t = .mxfp4 then 127 else 31
    let top : Int := if t = .mxfp4 then 254 else 62
    let x := clampInt 0 top (k + bias)
    let sc := x - bias
    let ety := if t = .mxfp4 then 1 else ty
    let rs := (vs.zip draws).map fun p =>
      match p.1 with
      | .fin n m e => blockRound ety mode p.2 (decide (top < k + bias)) n m (e - sc)
      | _ => (0, 0)
    (BitVec.ofNat 8 (x.toNat + if t = .mxfp4 then 0 else 64 * ty), rs.map (·.1), rs.foldl (fun f r => f ||| r.2) 0)

/-! ### Conversions of single elements (R41, R42) -/

/-- The number that an element of a format holds; a block element takes its scale byte. -/
def numOf (t : Fmt) (scale : BitVec 8) (x : Nat) : FNum :=
  if t.isBlock then blockElem t scale x
  else if Fmt.isFp t then (ffmt t).decode x
  else if t = .raw then .fin false x 0
  else let v := valOf t x; .fin (decide (v < 0)) v.natAbs 0

/-- A number to an integer type (R42): NaN gives 0, an infinity or a value out of range the nearest end, each with NV. -/
def toInt (t : Fmt) (mode : Rm) (draw : BitVec 16) (x : FNum) : Nat × BitVec 6 :=
  let w := Fmt.width t
  match x with
  | .nan _ => (0, flagNV)
  | .inf n => (((if n then loOf t else hiOf t) % 2 ^ w).toNat, flagNV)
  | .fin n m e =>
    let (q, inexact) := quantum mode draw n m e 0
    let z : Int := if n then -(q : Int) else q
    let c := clampInt (loOf t) (hiOf t) z
    ((c % 2 ^ w).toNat, if c ≠ z then flagNV else flagIf inexact flagNX)

/-- Convert one element to a format that is no block (R41, R42, R129): an integer source to an integer destination wraps, or
clamps under .sat. DEDUCED: assumption 28. -/
def convert (src dst : Fmt) (sat : Bool) (mode : Rm) (draw : BitVec 16) (scale : BitVec 8) (x : Nat) : Nat × BitVec 6 :=
  if Fmt.isFp dst then (ffmt dst).ofNum mode draw (numOf src scale x)
  else if Fmt.isFp src || src.isBlock then toInt dst mode draw (numOf src scale x)
  else narrow dst sat (valOf src x)

/-- Is an element an infinity or a NaN (R46, R207)? -/
def isSpecial (t : Fmt) (scale : BitVec 8) (x : Nat) : Bool :=
  let n := numOf t scale x
  n.isNan || n.isInf

/-! ### Groups of the matrix engine (R45) -/

/-- One group step (R45): the accumulator (FP32 bits) after the products of the pairs, and the flags. DEDUCED: assumption 70. -/
def groupStep (acc : Nat) (ps : List (FNum × FNum)) : Nat × BitVec 6 :=
  let f := ffmt .fp32
  let snan := ps.any fun p => p.1.isSnan || p.2.isSnan
  let zinf := ps.any fun p => (p.1.isZero && p.2.isInf) || (p.1.isInf && p.2.isZero)
  let nan := ps.any fun p => p.1.isNan || p.2.isNan
  let infs := (ps.map fun p => (mulNum p.1 p.2).1).filter FNum.isInf
  let meet := infs.any FNum.sign && infs.any (fun x => !x.sign)
  if nan || zinf || meet then (f.nanBits, flagIf (snan || zinf || meet) flagNV)
  else match infs with
  | x :: _ => f.result (addNum (f.decode acc) x)
  | [] =>
    let s := (ps.map fun p => mulFin p.1 p.2).foldl addFin (.fin false 0 0)
    if s.isZero then (acc, 0)
    else
      let (t, fl) := f.ofNum .rne 0 s
      let (r, fl2) := f.result (addNum (f.decode acc) (f.decode t))
      (r, fl ||| fl2)

/-- One integer group step (R45): Sat32 of the accumulator and the exact sum, with SAT. A zero sum leaves it. -/
def groupStepInt (acc : Nat) (ps : List (Int × Int)) : Nat × BitVec 6 :=
  let s := (ps.map fun p => p.1 * p.2).foldl (· + ·) 0
  if s = 0 then (acc, 0) else narrow .i32 true (valOf .i32 acc + s)

/-! ### Stochastic draws (R37) -/

/-- One step of the generator. -/
def drawNext (s : BitVec 64) : BitVec 64 :=
  let s := s ^^^ (s <<< 13)
  let s := s ^^^ (s >>> 7)
  s ^^^ (s <<< 17)
/-- The draw of a state. -/
def drawOf (s : BitVec 64) : BitVec 16 := s.extractLsb' 48 16
/-- `n` draws in order, and the state after them. DEDUCED: assumption 32. -/
def draws (s : BitVec 64) : Nat → List (BitVec 16) × BitVec 64
  | 0 => ([], s)
  | n + 1 => let s := drawNext s; let r := draws s n; (drawOf s :: r.1, r.2)

end Sys2Proof.Machine
end

