-- ==== Sys2Proof/Machine/Operands.lean ====
section
/-! DEFINITION. Operand forms: immediates and literals (R48, R51), addresses (R92, R117), and register groups with their
predicates, tags and writes (R108 to R113). -/

namespace Sys2Proof

/-- The immediate of forms I and B, or the literal (R48, R51). -/
def Ops.imm13 (o : Ops) : Word := if o.len = .w3 then o.lit.signExtend 64 else (o.imm.setWidth 13).signExtend 64
/-- The immediate of form K, or the literal: zero-extended. -/
def Ops.imm8 (o : Ops) : Word := if o.len = .w3 then o.lit.setWidth 64 else (o.imm.setWidth 8).setWidth 64
/-- The byte offset of form M, or the literal. -/
def Ops.imm10 (o : Ops) : Word := if o.len = .w3 then o.lit.signExtend 64 else (o.imm.setWidth 10).signExtend 64
/-- The offset of form J, or the literal. -/
def Ops.imm18 (o : Ops) : Word := if o.len = .w3 then o.lit.signExtend 64 else o.imm.signExtend 64

end Sys2Proof

namespace Sys2Proof.Machine

open Sys2Proof

/-- Operand b of form A: the literal in the 96-bit form (R51). -/
def State.srcBL (s : State) (o : Ops) : Except Stop Word :=
  if o.len = .w3 then .ok (o.lit.signExtend 64) else s.srcB o

/-- Elements of a format in a register of 128 bits; .raw counts bytes (R32, R110). -/
def perReg (w : Nat) : Nat := 128 / w

/-- Width of an EW code (R109). -/
def ewBits (c : BitVec 3) : Nat := 4 * 2 ^ c.toNat
/-- EW code of a width. -/
def ewCode (w : Nat) : BitVec 3 := if w = 4 then 0 else if w = 8 then 1 else if w = 16 then 2 else if w = 32 then 3 else 4

/-- Image of a predicate (R109). -/
def Pred.image (p : Pred) : Word := (0#48 ++ p.span ++ p.ew ++ 0#2 ++ p.count : BitVec 64)

/-- SPAN of the governing predicate (R110). -/
def Task.span (t : Task) (o : Ops) : Nat := (t.rdP o.m).span.toNat
/-- Active elements of width `w` under the governing predicate (R110): (i + 1) × w ≤ COUNT × EW. -/
def Task.active (t : Task) (o : Ops) (w : Nat) : Nat :=
  let p := t.rdP o.m
  min (p.count.toNat * ewBits p.ew / w) (p.span.toNat * perReg w)

/-- The registers of a group of `n` from `base`. -/
def Task.group (t : Task) (base : BitVec 5) (n : Nat) : List VReg := (List.range n).map fun j => t.rdV (base.toNat + j)
/-- The bits of a group, element 0 lowest. -/
def groupNat : List VReg → Nat
  | [] => 0
  | r :: l => r.bits.toNat + 2 ^ 128 * groupNat l
/-- Element i of width w. -/
def elemAt (x w i : Nat) : Nat := x / 2 ^ (w * i) % 2 ^ w
/-- A group that runs past v31 raises the illegal-operand trap (R110). DEDUCED: assumption 26. -/
def groupFits (base : BitVec 5) (n : Nat) : Except Stop Unit := need (decide (base.toNat + n ≤ 32)) Stop.illegalOperand

/-- One register of a list of elements, element 0 lowest. -/
def packElems (w : Nat) : List Nat → Nat
  | [] => 0
  | x :: l => x % 2 ^ w + 2 ^ w * packElems w l

/-- Write element values to a group of `n` registers from `base` (R111): active elements take `f i`, inactive ones keep their
bits or are 0 under `z`; a register with an active element, or under `z`, takes the tag and scale field. -/
def Task.wrGroup (t : Task) (base : BitVec 5) (n w act : Nat) (z : Bool) (tag : Fmt) (scale : Nat → VReg → BitVec 8)
    (f : Nat → Nat) : Task :=
  (List.range n).foldl (fun t j =>
    if j * perReg w < act || z then
      let r := t.rdV (base.toNat + j)
      let bits := packElems w ((List.range (perReg w)).map fun k =>
        let i := j * perReg w + k
        if i < act then f i else if z then 0 else elemAt r.bits.toNat w k)
      t.wrV (base.toNat + j) { bits := BitVec.ofNat 128 bits, tag := tag, scale := scale j r }
    else t) t

/-- Scale field of a written register (R108): 0 unless the tag is a block format; of a block the spec names no value, so it
is a free one (DEDUCED, assumption 8). -/
def State.laneScale (s : State) (tag : Fmt) (j : Nat) (_ : VReg) : BitVec 8 := if tag.isBlock then Config.scaleField s.free j else 0

/-- Check the tags of a group against a format (R112): the first register that differs takes the format fault. `expect` is
what is reported for the first register. DEDUCED: assumption 26. -/
def Task.tagsAre (t : Task) (pos : Nat) (base : BitVec 5) (n : Nat) (want : Fmt) (ok : Bool) (expect : Fmt) : Except Stop Unit :=
  (List.range (min n (32 - base.toNat))).foldlM (fun _ j =>
    let g := (t.rdV (base.toNat + j)).tag
    if g = want ∧ ok then .ok () else .error (Stop.format pos (if j = 0 then expect else want) g j)) ()

/-- Check a group against a set of tags (R112): reported with expected tag 0x00. -/
def Task.tagsIn (t : Task) (pos : Nat) (base : BitVec 5) (n : Nat) (ok : Fmt → Bool) : Except Stop Unit :=
  (List.range (min n (32 - base.toNat))).foldlM (fun _ j =>
    let g := (t.rdV (base.toNat + j)).tag
    if ok g then .ok () else .error (Stop.format pos .raw g j)) ()

/-- The instruction's format (R112): the tag field, or the tag of source a, which must be in the accepted set. -/
def Task.format (t : Task) (o : Ops) : Fmt := if o.x.tag ≠ .raw then o.x.tag else (t.rdV o.a.toNat).tag

/-- The format of a lane instruction after the tag checks of a, and of b where it is a source of equal tag (R112, R113).
DEDUCED: assumption 26. -/
def Task.laneFormat (t : Task) (o : Ops) (accept : BitVec 32) (binary : Bool) : Except Stop Fmt := do
  let f := t.format o
  if o.x.ri then .ok f
  else do
    let ok := inSet (accept &&& ~~~(if o.x.tag = .raw ∧ accept ≠ anyTag then 1 else 0 : BitVec 32)) f.code.toNat
    t.tagsAre 0 o.a (t.span o) f ok (if o.x.tag = .raw then .raw else f)
    if binary then t.tagsAre 1 o.b (t.span o) f ok f else .ok ()
    .ok f

/-- Governing width of a format (R110). -/
def laneBits (f : Fmt) : Nat := fmtBits f

/-- Is a format one of the integer tags of the width of another (R113)? -/
def sameWidthInt (f g : Fmt) : Bool := g.isInt && fmtBits g == laneBits f
/-- N format of a width (R113). -/
def nOf (w : Nat) : Fmt := if w = 4 then .n4 else if w = 8 then .n8 else if w = 16 then .n16 else if w = 32 then .n32 else .n64

/-- Complete a task-only instruction: the new task, the flags merged, port words consumed, the program counter advanced. -/
def State.doneTask (s : State) (o : Ops) (t : Task) (f : BitVec 6) : State := (((s.setTask t).flag f).take o).advance o

end Sys2Proof.Machine
end

