-- ==== Sys2Proof/Machine/Counter.lean ====
section
/-! DEFINITION. Counters, barrier records and the groups they count (R295 to R317): the operations of a counter home, the
phase procedure, the census, and the instructions of counters and barriers. -/

namespace Sys2Proof.Machine

open Sys2Proof

/-- An 8-byte word of memory. -/
def State.word (s : State) (pa : Nat) : Nat := s.mem.read pa 8

/-! ### Groups (R295, R296, R299) -/

def State.groupAt (s : State) (pa : Nat) : Option Group := s.groupTab.find? (·.pa == pa)
/-- The header image of an entry (R295): ST 2 when full, 1 when active. -/
def Group.header (g : Group) : Word :=
  let n := g.members.length
  g.ver ++ 0#2 ++ (if n = 0 then 0#2 else if g.maxm.toNat ≤ n then 2#2 else 1#2) ++ 0#4 ++ g.maxm ++ BitVec.ofNat 16 n
/-- A census (R299): one read of the header, of the entry or, for an idle group, of memory. -/
def State.census (s : State) (pa : Nat) : Word :=
  match s.groupAt pa with | some g => g.header | none => BitVec.ofNat 64 (s.word pa)
/-- The members that a collective counts (R309): 0 where the record cannot be read, for a data error or for its stack's state. -/
def State.censusCount (s : State) (pa : Nat) : Nat :=
  let k := (s.stack (stackOf pa)).state
  if k = .offline ∨ k = .scrubbing ∨ s.poisoned pa 8 = true then 0 else ((s.census pa).extractLsb' 0 16).toNat

/-! ### Barrier records (R308, R309) -/

/-- A word of a record as it is stored; past 64 bits the spec states no value (DESIGN CHOICE, assumption 13). -/
def State.fit64 (s : State) (x : Nat) : Nat := if x < 2 ^ 64 then x else (Config.barrierWord s.free).toNat
def State.parties (s : State) (rec : Nat) : Nat := s.mem.read (rec + 48) 4

/-- The phase procedure (R309) in closed form: the first phase takes NB into TB; while BYT still meets TB, each further phase
adds n to TA until TA passes ARR. -/
def State.phases (s : State) (rec : Nat) : State :=
  let arr := s.word rec
  let byt := s.word (rec + 8)
  let ta := s.word (rec + 16)
  let tb := s.word (rec + 24)
  if s.parties rec = 0 ∨ arr < ta ∨ byt < tb then s
  else
    let grpa := s.word (rec + 56)
    let n := max (if grpa ≠ 0 then s.censusCount grpa else s.parties rec) 1
    let tb1 := tb + s.word (rec + 40)
    let more := if byt < tb1 ∨ arr < ta + n then 0 else (arr - (ta + n)) / n + 1
    let s1 := s.poke (rec + 16) 8 (s.fit64 (ta + n * (1 + more)))
    let s2 := s1.poke (rec + 24) 8 (s.fit64 tb1)
    let s3 := s2.poke (rec + 40) 8 0
    s3.poke (rec + 32) 8 (s.fit64 (s.word (rec + 32) + 1 + more))

/-- What a wait on a word reads (R306, R317): PH of a record that is not initialised reads as 0. -/
def waitValue (mem : Memory) (pa : Nat) (phase : Bool) : Nat :=
  if phase && mem.read (pa / 64 * 64 + 48) 4 == 0 then 0 else mem.read pa 8
/-- A wait on a counter of a line whose target is met takes the value (R306, R314). -/
def Task.meet (mem : Memory) (line : Nat) (t : Task) : Task :=
  match t.wait with
  | .counter pa target none phase =>
    if lineOf pa = line ∧ target ≤ waitValue mem pa phase then
      { t with wait := .counter pa target (some (BitVec.ofNat 64 (waitValue mem pa phase))) phase }
    else t
  | _ => t
def State.meetWaits (s : State) (line : Nat) : State :=
  { s with task := s.task.meet s.mem line, others := s.others.map (Task.meet s.mem line) }

/-- What the counter home does after any change of a word of a line (R309, R314). DESIGN CHOICE: assumption 13. -/
def State.changed (s : State) (pa : Nat) : State := (s.phases (pa / 64 * 64)).meetWaits (lineOf pa)
/-- Store a counter word. -/
def State.setCounter (s : State) (pa v : Nat) : State := (s.poke pa 8 v).changed pa

/-- Would an add of an agent post a record that finds no room (R270, R304)? The adding unit stalls until there is.
DEDUCED: assumption 68. -/
def State.addStalls (s : State) (pa : Nat) (tenant : BitVec 12) (v : Nat) : Bool := decide (2 ^ 64 ≤ s.word pa + v) && !s.postRoom tenant
/-- An add by an agent that is no task's CADD, BARRIVE or BEXPECT (R303, R304): it saturates with a record of type 5. `va` is
the counter's virtual address where the agent named it by one. -/
def State.agentAdd (s : State) (pa : Nat) (va : Word) (tid : Tid) (tenant : BitVec 12) (v : Nat) : State :=
  let sum := s.word pa + v
  if sum < 2 ^ 64 then s.setCounter pa sum
  else (s.setCounter pa (2 ^ 64 - 1)).postOwn tenant 5 0 tid (BitVec.ofNat 64 pa) 0 (BitVec.ofNat 64 v) va

/-- The physical address of a counter that an agent names by a virtual address in a task's space, or why it is not reached. -/
def State.counterPa (s : State) (w : Who) (va : Word) : Except Bad Nat :=
  match s.check w { r := true, w := true, ctr := .require } va with
  | .ok (.phys pa _) => if va.toNat % 8 = 0 then .ok pa else .error .permission
  | .ok (.scratch _) => .error .permission
  | .error b => .error b

/-- Who made a held add. -/
def HeldAdd.who (a : HeldAdd) : Who :=
  { core := a.core, aspace := a.aspace, sup := a.sup, tenant := a.tid.extractLsb' 36 12, granted := a.grant }
/-- Whose queue learns of a counter that an agent's add saturates (R304, R334): of the add's task, or for no task of the paddock that
holds the stack. -/
def State.addTenant (s : State) (pa : Nat) (tid : Tid) : BitVec 12 :=
  if tid = 0 then ((s.stack (stackOf pa)).tenant).getD 0 else tid.extractLsb' 36 12
/-- The counter of an add, or why its home does not take it now (R307, R344). -/
def State.addPlace (s : State) (a : HeldAdd) : Except Bad Nat :=
  match a.pa with
  | none => s.counterPa a.who a.va
  | some pa =>
    if (s.stack (stackOf pa)).inTransit || s.behind a.who (stackOf pa) then .error (.transit (BitVec.ofNat 4 (stackOf pa)) true) else .ok pa
/-- An add by an agent (R188, R303, R304): held where the counter's stack is in transit (R307), or where its record finds no room;
nothing where the counter cannot be reached. DEDUCED: assumption 56. -/
def State.makeAdd (s : State) (a : HeldAdd) : State :=
  match s.addPlace a with
  | .ok pa =>
    if s.addStalls pa (s.addTenant pa a.tid) a.amount then { s with heldAdds := s.heldAdds ++ [a] }
    else s.agentAdd pa a.va a.tid (s.addTenant pa a.tid) a.amount
  | .error b => if b.waits then { s with heldAdds := s.heldAdds ++ [{ a with grant := a.who.keep s.clk b }] } else s
/-- The add of an agent on behalf of a task, which names the counter by its virtual address. -/
def State.addFor (s : State) (w : Who) (va : Word) (tid : Tid) (v : Nat) (stream : Option (BitVec 2) := none) : State :=
  s.makeAdd { core := w.core, aspace := w.aspace, sup := w.sup, va := va, tid := tid, amount := v, stream := stream }
/-- May a held add be made, or given up, now? -/
def State.addFree (s : State) (a : HeldAdd) : Bool :=
  match s.addPlace a with | .ok pa => !s.addStalls pa (s.addTenant pa a.tid) a.amount | .error b => !b.waits
/-- The first held add that its home takes is performed (R307): adds to one counter keep their order of arrival. -/
def State.releaseAdd (s : State) : State :=
  match s.heldAdds.findIdx? s.addFree with
  | none => s
  | some i =>
    match s.heldAdds[i]? with
    | none => s
    | some a => { s with heldAdds := s.heldAdds.eraseIdx i }.makeAdd a
/-- Does a stream's event add stand held, so that its agent does nothing else (R307)? -/
def State.eventHeld (s : State) (tid : Tid) (n : BitVec 2) : Bool := s.heldAdds.any fun a => a.tid == tid && a.stream == some n

/-! ### The instructions -/

/-- The checks of R312: alignment, R92 steps 2 to 4, then the counter page. -/
def State.counterLoc (s : State) (n : Want) (va : Word) (align : Nat) : Except Stop Nat := do
  need (va.toNat % align == 0) (Stop.alignment va)
  let l ← s.access { n with r := true, ctr := .allow } va
  match l with
  | .scratch _ => .error (Stop.permission va)
  | .phys pa e => if pteCtr e then .ok pa else .error (Stop.permission va)

/-- What a read of a counter word of 8 bytes returns (R240). -/
def State.ctrWord (s : State) (pa : Nat) : Nat := s.loaded (.phys pa 0) 8
/-- The executing task takes the data error of a read of a counter line at its next boundary (R240). -/
def State.ctrError (s : State) (va : Word) (pa : Nat) : State := s.noteError va (.phys pa 0) 8

/-- An add by a task (R304): past the top of the range it takes the counter-saturation trap. -/
def State.taskAdd (s : State) (pa : Nat) (va : Word) (v : Word) : Except Stop State :=
  let old := s.ctrWord pa
  if old + v.toNat < 2 ^ 64 then .ok (s.setCounter pa (old + v.toNat))
  else .error (.trap { kind := 15, info0 := va, info1 := BitVec.ofNat 64 old, info2 := v })

/-- CADD (R313). -/
def execCadd (o : Ops) (s : State) : Host.Outcome State Fault Refusal :=
  s.run (.cadd o) (do
    let va ← s.srcA o
    let y ← s.srcBL o
    let pa ← s.counterLoc { w := true } va 8
    let s1 ← (s.ctrError va pa).taskAdd pa va y
    (s1.acquire o).complete o (BitVec.ofNat 64 (s.ctrWord pa)))

/-- CADD.set (R313): for a supervisor task. -/
def execCaddSet (o : Ops) (s : State) : Host.Outcome State Fault Refusal :=
  s.run (.caddSet o) (do
    s.needSup
    let va ← s.srcA o
    let y ← s.srcBL o
    let pa ← s.counterLoc { w := true } va 8
    (((s.ctrError va pa).setCounter pa y.toNat).acquire o).complete o (BitVec.ofNat 64 (s.ctrWord pa)))

/-- Counter-wait slots in use at the home of an address (R306). -/
def State.waitSlots (s : State) (pa : Nat) : Nat :=
  (s.tasks.filter fun t => match t.wait with
    | .counter q _ none _ => t.cstate == .waiting && s.roomAt q pa
    | _ => false).length

/-- The counter wait of the executing task that a value has met, if one has (R306, R314): the address and the value; the wait then
completes. -/
def State.metValue (s : State) : Option (Nat × Word) :=
  match s.task.wait with | .counter pa _ (some v) _ => some (pa, v) | _ => none
/-- A wait of the executing task completes with a value of the counter at an address, or with a data error (R240). -/
def State.waited (s : State) (o : Ops) (va : Word) (pa : Nat) (v : Word) : Except Stop State :=
  ((s.ctrError va pa).acquire o).complete o (if s.poisoned pa 8 then BitVec.ofNat 64 (s.ctrWord pa) else v)
/-- A wait for a counter (R314): complete with a value that meets the target, or take a slot. A read that finds a data error returns at
once. DEDUCED: assumption 22. -/
def State.counterWait (s : State) (o : Ops) (va : Word) (pa target : Nat) (phase : Bool) : Except Stop State :=
  if target ≤ waitValue s.mem pa phase ∨ s.poisoned pa 8 = true then s.waited o va pa (BitVec.ofNat 64 (waitValue s.mem pa phase))
  else if 64 ≤ s.waitSlots pa then .error (Stop.resource 6)
  else .error (.wait (.counter pa target none phase))

/-- CWAIT (R314). -/
def execCwait (o : Ops) (s : State) : Host.Outcome State Fault Refusal :=
  s.run (.cwait o) (
    match s.metValue with
    | some v => do
      let va ← s.srcA o
      s.waited o va v.1 v.2
    | none => do
      let va ← s.srcA o
      let y ← s.srcBL o
      let pa ← s.counterLoc {} va 8
      s.counterWait o va pa y.toNat false)

/-- CRD (R314). -/
def execCrd (o : Ops) (s : State) : Host.Outcome State Fault Refusal :=
  s.run (.crd o) (do
    let va ← s.srcA o
    let pa ← s.counterLoc {} va 8
    ((s.ctrError va pa).acquire o).complete o (BitVec.ofNat 64 (s.ctrWord pa)))

/-- BEXPECT (R315). -/
def execBexpect (o : Ops) (s : State) : Host.Outcome State Fault Refusal :=
  s.run (.bexpect o) (do
    let va ← s.srcA o
    let y ← s.srcBL o
    let c ← s.srcC o
    let pa ← s.counterLoc { w := true } va 64
    let ph := s.ctrWord (pa + 32)
    let s0 := s.ctrError va pa
    if s.parties pa = 0 then s0.complete o 3
    else if c.toNat < ph then (s0.changed pa).complete o 1
    else if ph + 1 < c.toNat then (s0.changed pa).complete o 2
    else
      let off := if c.toNat = ph then 24 else 40
      let s1 ← s0.taskAdd (pa + off) (va + BitVec.ofNat 64 off) y
      s1.complete o 0)

/-- Initialise a record (R316): the reset values of the field map. -/
def State.initRecord (s : State) (pa ta parties grpa : Nat) : State :=
  (s.poke pa 64 (ta * 2 ^ 128 + parties * 2 ^ 384 + grpa * 2 ^ 448)).changed pa

/-- BEXPECT.init (R316). -/
def execBexpectInit (o : Ops) (s : State) : Host.Outcome State Fault Refusal :=
  s.run (.bexpectInit o) (do
    let va ← s.srcA o
    let y ← s.srcBL o
    let pa ← s.counterLoc { w := true } va 64
    need (s.parties pa == 0 && y != 0 && y.toNat < 2 ^ 32) Stop.illegalOperand
    ((s.ctrError va pa).initRecord pa y.toNat y.toNat 0).complete o 0)

/-- Is a leaf's page a DIR page (R145, R302, R321)? DEDUCED: assumption 53. -/
def dirPage (e : Word) : Bool := pteMode e == 0 && !pteCtr e

/-- BEXPECT.grp (R316). DEDUCED: assumption 53. -/
def execBexpectGrp (o : Ops) (s : State) : Host.Outcome State Fault Refusal :=
  s.run (.bexpectGrp o) (do
    let va ← s.srcA o
    let y ← s.srcBL o
    let pa ← s.counterLoc { w := true } va 64
    need (y.toNat % 64 == 0) (Stop.alignment y)
    let l ← s.access { r := true, home := true, ctr := .allow } y
    match l with
    | .scratch _ => .error (Stop.permission y)
    | .phys g e =>
      need (dirPage e && s.parties pa == 0) Stop.illegalOperand
      ((s.ctrError va pa).initRecord pa (max (s.censusCount g) 1) 1 g).complete o 0)

/-- BARRIVE (R317). -/
def execBarrive (o : Ops) (s : State) : Host.Outcome State Fault Refusal :=
  s.run (.barrive o) (do
    let va ← s.srcA o
    let pa ← s.counterLoc { w := true } va 64
    need (s.parties pa != 0) Stop.illegalOperand
    let s1 ← (s.ctrError va pa).taskAdd pa va 1
    s1.complete o (BitVec.ofNat 64 (s.ctrWord (pa + 32))))

/-- BWAIT (R317): as CWAIT on PH with target b + 1; on a record that is not initialised it waits. DEDUCED: assumption 53. -/
def execBwait (o : Ops) (s : State) : Host.Outcome State Fault Refusal :=
  s.run (.bwait o) (
    match s.metValue with
    | some v => do
      let va ← s.srcA o
      s.waited o (va + 32) v.1 v.2
    | none => do
      let va ← s.srcA o
      let y ← s.srcBL o
      let pa ← s.counterLoc {} va 64
      s.counterWait o (va + 32) (pa + 32) (y.toNat + 1) true)

end Sys2Proof.Machine
end

