-- ==== Sys2Proof/Machine/Group.lean ====
section
/-! DEFINITION. Groups (R295 to R301): JOIN, LEAVE and GINFO, and the LEAVE that EXIT and a written dump make. -/

namespace Sys2Proof.Machine

open Sys2Proof

/-- Entries of the group table at the home of an address (R296). -/
def State.groupEntries (s : State) (pa : Nat) : Nat := (s.groupTab.filter fun g => s.roomAt g.pa pa).length

/-- The entry writes the header and a member to the record (R296). DEDUCED: assumption 53. -/
def State.writeMember (s : State) (pa j : Nat) (m : Tid × Word) : State :=
  (s.poke (pa + 64 + 16 * j) 8 m.1.toNat).poke (pa + 72 + 16 * j) 8 m.2.toNat
/-- Install a changed entry, which writes its members and its header; with no member left it is freed. -/
def State.putGroup (s : State) (g : Group) : State :=
  let rest := s.groupTab.filter (·.pa != g.pa)
  let s1 := { s with groupTab := if g.members.isEmpty then rest else rest ++ [g] }
  (((List.range g.members.length).zip g.members).foldl (fun s m => s.writeMember g.pa m.1 m.2) s1).poke g.pa 8 g.header.toNat

/-- The lines of a record that its entry writes for `n` members (R295, R296). -/
def recordLines (pa n : Nat) : List Nat := (List.range (lineOf (pa + 64 + 16 * n - 1) - lineOf pa + 1)).map (lineOf pa + ·)
/-- The lines that a change of a group writes. -/
def State.groupLines (s : State) (pa : Nat) : List Nat :=
  recordLines pa (match s.groupAt pa with | some g => g.members.length + 1 | none => 1)
/-- Must a change of a group wait for a halter on a line of its record that is not the task's own (R168, R296)? -/
def State.groupHaltered (s : State) (tid : Tid) (pa : Nat) : Bool := (s.groupLines pa).any (s.haltered tid)
/-- The entry of an active group writes its record before a JOIN or a LEAVE completes, whether or not it changed the group (R296). -/
def State.rewrite (s : State) (pa : Nat) : State := match s.groupAt pa with | some g => s.putGroup g | none => s

/-- The rank word of a member (R295). -/
def Task.rankWord (t : Task) : Word := t.rank &&& 0x80000000000FFFFF

/-- The result image of JOIN and LEAVE (R301). -/
def groupResult (ver : BitVec 24) (status : Nat) (index : Nat) : Word :=
  ver ++ (0#21 : BitVec 21) ++ BitVec.ofNat 3 status ++ BitVec.ofNat 16 index

/-- Add a task to a group (R298, R301). -/
def State.joinGroup (s : State) (g : Group) (t : Task) : State :=
  let m := (t.tid, t.rankWord)
  let s1 := s.putGroup { g with ver := g.ver + 1, members := g.members ++ [m] }
  s1.modTask t.tid fun t => { t with groups := t.groups ++ [g.pa] }

/-- Remove member j (R298): the last member moves into its place. -/
def State.leaveGroup (s : State) (g : Group) (j : Nat) (tid : Tid) : State :=
  let last := g.members.length - 1
  let m := g.members.getD last (0, 0)
  let ms := (if j = last then g.members else g.members.set j m).take last
  let s1 := s.putGroup { g with ver := g.ver + 1, members := ms }
  s1.modTask tid fun t => { t with groups := t.groups.filter (· != g.pa) }

/-- Leave every group of a task, without a settle counter (R249, R297, R390). -/
def State.leaveAll (s : State) (tid : Tid) : State :=
  match s.findTask tid with
  | none => s
  | some t => t.groups.foldl (fun s pa =>
      match s.groupAt pa with
      | none => s
      | some g =>
        match g.members.findIdx? (·.1 == tid) with
        | none => s
        | some j => s.leaveGroup g j tid) s

/-- Can every LEAVE of a task that ends be made now: no record's stack is in transit (R98, R347), no line is under a halter of another
(R168), and there is a way to each home (R360)? -/
def State.mayLeave (s : State) (t : Task) : Bool :=
  t.groups.all fun pa => !(s.stack (stackOf pa)).inTransit && !s.groupHaltered t.tid pa && s.way t.tenant t.die pa

/-- The physical address of a group record (R301; R388 refuses the scratch window), whose line is under no other halter (R168). -/
def State.groupLoc (s : State) (n : Want) (va : Word) : Except Stop Nat := do
  let l ← s.access { n with r := true, home := true } va
  s.notHaltered l
  match l with
  | .scratch _ => .error (Stop.permission va)
  | .phys pa _ => .ok pa

/-- The data error of a read of a word of an idle group's record in memory (R240). -/
def State.groupError (s : State) (va : Word) (pa off : Nat) : State :=
  if (s.groupAt pa).isSome then s else s.ctrError (va + BitVec.ofNat 64 off) (pa + off)

/-- JOIN (R298, R301). -/
def execJoin (o : Ops) (s : State) : Host.Outcome State Fault Refusal :=
  s.run (.join o) (do
    let va ← s.srcA o
    need (va.toNat % 64 == 0) (Stop.alignment va)
    let pa ← s.groupLoc { w := true } va
    need (!s.groupHaltered s.task.tid pa) (.wait .retry)
    let h := s.census pa
    let maxm := h.extractLsb' 16 16
    match s.groupAt pa with
    | none =>
      need (1 ≤ maxm.toNat && maxm.toNat ≤ 16384 && h.extractLsb' 0 16 == 0) Stop.illegalOperand
      need (s.groupEntries pa < 16) (Stop.resource 4)
    | some _ => .ok ()
    let g : Group := (s.groupAt pa).getD { pa := pa, ver := h.extractLsb' 40 24, maxm := maxm, members := [] }
    let s0 := (s.groupError va pa 0).acquire o
    match g.members.findIdx? (·.1 == s.task.tid) with
    | some j => (s0.rewrite pa).complete o (groupResult g.ver 1 j)
    | none =>
      if 4 ≤ s.task.groups.length then (s0.rewrite pa).complete o (groupResult g.ver 3 0)
      else if g.maxm.toNat ≤ g.members.length then (s0.rewrite pa).complete o (groupResult g.ver 2 0)
      else (s0.joinGroup g s.task).complete o (groupResult (g.ver + 1) 0 g.members.length))

/-- LEAVE (R298, R301): the settle add follows the removal within the same release. -/
def execLeave (o : Ops) (s : State) : Host.Outcome State Fault Refusal :=
  s.run (.leave o) (do
    let va ← s.srcA o
    let vb ← s.srcB o
    need (va.toNat % 64 == 0) (Stop.alignment va)
    need (vb.toNat % 8 == 0) (Stop.alignment vb)
    let pa ← s.groupLoc { w := true } va
    let pb ← if vb = 0 then .ok none else (do let p ← s.counterLoc { w := true } vb 8; .ok (some p))
    need (!s.groupHaltered s.task.tid pa) (.wait .retry)
    let s0 := (s.groupError va pa 0).acquire o
    match s.groupAt pa with
    | none => s0.complete o (groupResult ((s.census pa).extractLsb' 40 24) 1 0)
    | some g =>
      match g.members.findIdx? (·.1 == s.task.tid) with
      | none => (s0.rewrite pa).complete o (groupResult g.ver 1 0)
      | some j =>
        let s1 := s0.leaveGroup g j s.task.tid
        let s2 := match pb with
          | none => s1
          | some p => s1.makeAdd { core := s.task.core, aspace := s.task.aspace, sup := s.task.sup, va := vb, pa := some p,
                                   tid := s.task.tid, amount := 1 }
        s2.complete o (groupResult (g.ver + 1) 0 j))

/-- A GINFO (R301): the aligned record read for R, with the value that the form reports; `line` is the offset of the word that an idle
group gives from memory. DEDUCED: assumption 53. -/
def State.ginfo (s : State) (i : Instr) (o : Ops) (line : Nat → Word → Nat) (f : Nat → Word → Word) : Host.Outcome State Fault Refusal :=
  s.run i (do
    let va ← s.srcA o
    let y ← s.srcB o
    need (va.toNat % 64 == 0) (Stop.alignment va)
    let pa ← s.groupLoc {} va
    need ((s.groupAt pa).isSome || !s.haltered s.task.tid (lineOf (pa + line pa y))) (.wait .retry)
    let s0 := (s.groupError va pa (line pa y)).groupError va pa 0
    (s0.acquire o).complete o (f pa y))

/-- The offset of a word of member `y` of an idle group; of the header, where it has no such member. -/
def State.memberOffset (s : State) (off pa : Nat) (y : Word) : Nat :=
  if y.toNat < ((s.census pa).extractLsb' 0 16).toNat then 64 + 16 * y.toNat + off else 0
/-- A word of member `y` of a group: from the entry, or for an idle group from memory; 0 at COUNT or beyond.
DEDUCED: assumption 53. -/
def State.memberWord (s : State) (fromEntry : Tid × Word → Word) (off pa : Nat) (y : Word) : Word :=
  match s.groupAt pa with
  | some g => match g.members[y.toNat]? with | some m => fromEntry m | none => 0
  | none =>
    if y.toNat < ((s.census pa).extractLsb' 0 16).toNat then BitVec.ofNat 64 (s.ctrWord (pa + 64 + 16 * y.toNat + off)) else 0

/-- GINFO.hdr (R301). -/
def execGinfoHdr (o : Ops) (s : State) : Host.Outcome State Fault Refusal :=
  s.ginfo (.ginfoHdr o) o (fun _ _ => 0) fun pa _ => s.census pa
/-- GINFO.mem (R301). -/
def execGinfoMem (o : Ops) (s : State) : Host.Outcome State Fault Refusal :=
  s.ginfo (.ginfoMem o) o (s.memberOffset 8) fun pa y => s.memberWord (·.2) 8 pa y
/-- GINFO.tid (R301): the TID lies in bits [47:0] of the member's first word. -/
def execGinfoTid (o : Ops) (s : State) : Host.Outcome State Fault Refusal :=
  s.ginfo (.ginfoTid o) o (s.memberOffset 0) fun pa y => s.memberWord (·.1.setWidth 64) 0 pa y &&& 0xFFFFFFFFFFFF

end Sys2Proof.Machine
end

