-- ==== Sys2Proof/Machine/Scalar.lean ====
section
/-! DEFINITION. The scalar instructions (R59, R76 to R91): integer arithmetic, logic, shifts, compare and select, literals,
and control transfer. -/

namespace Sys2Proof

/-- The integer type of a scalar instruction (R76). -/
def Ops.ity (o : Ops) : Fmt := if o.x.tag = .raw then .i64 else o.x.tag
/-- The .sat qualifier (R77). -/
def Ops.sat (o : Ops) : Bool := o.x.mod.getLsbD 0

/-- Does a condition hold between values of the type (R86)? -/
def CmpCond.holds (k : CmpCond) (a b : Int) : Bool :=
  match k with
  | .eq => decide (a = b) | .ne => decide (a ≠ b) | .lt => decide (a < b) | .ge => decide (b ≤ a)
  | .gt => decide (b < a) | .le => decide (a ≤ b)

end Sys2Proof

namespace Sys2Proof.Machine

open Sys2Proof


/-- Sum, difference and product of two operands of the type, wrapped or clamped (R80, R81). -/
def arith (f : Int → Int → Int) (t : Fmt) (sat : Bool) (x y : Word) : Word × BitVec 6 :=
  let r := narrow t sat (f (valOf t x.toNat) (valOf t y.toNat))
  (extend t r.1, r.2)
/-- The high half of the exact product (R81). -/
def mulHigh (t : Fmt) (x y : Word) : Word :=
  extend t (((valOf t x.toNat * valOf t y.toNat) / 2 ^ Fmt.width t) % 2 ^ Fmt.width t).toNat
/-- Quotient truncated toward zero; a zero divisor gives all ones (R82). -/
def divide (t : Fmt) (x y : Word) : Word :=
  let a := valOf t x.toNat
  let b := valOf t y.toNat
  extend t (if b = 0 then 2 ^ Fmt.width t - 1 else ((a.tdiv b) % 2 ^ Fmt.width t).toNat)
/-- Remainder with the sign of x; a zero divisor gives x (R82). -/
def remainder (t : Fmt) (x y : Word) : Word :=
  let a := valOf t x.toNat
  let b := valOf t y.toNat
  extend t ((if b = 0 then a else a.tmod b) % 2 ^ Fmt.width t).toNat
/-- The lesser or the greater operand (R83). -/
def lesser (t : Fmt) (x y : Word) : Word := extend t (if valOf t y.toNat < valOf t x.toNat then y else x).toNat
def greater (t : Fmt) (x y : Word) : Word := extend t (if valOf t x.toNat < valOf t y.toNat then y else x).toNat
/-- A bitwise operation on 64 bits, extended from the type's width (R84). -/
def logic (f : Word → Word → Word) (t : Fmt) (x y : Word) : Word := extend t (f x y).toNat

/-- Shift or rotate the low w bits by an unmasked amount (R85, R125). -/
def shlBits (w x a : Nat) : Nat := if a < w then (x % 2 ^ w) * 2 ^ a % 2 ^ w else 0
def shrBits (w x a : Nat) : Nat := if a < w then (x % 2 ^ w) / 2 ^ a else 0
def sarBits (w x a : Nat) : Nat :=
  let y := x % 2 ^ w
  let k := if a < w then a else w
  y / 2 ^ k + (if 2 ^ (w - 1) ≤ y then 2 ^ w - 2 ^ (w - k) else 0)
def rolBits (w x a : Nat) : Nat :=
  let y := x % 2 ^ w
  let k := a % w
  (y * 2 ^ k) % 2 ^ w + y / 2 ^ (w - k)
def rorBits (w x a : Nat) : Nat := rolBits w x (w - a % w)

/-- A shift in the type (R85). -/
def shift (f : Nat → Nat → Nat → Nat) (t : Fmt) (x a : Word) : Word := extend t (f (Fmt.width t) x.toNat a.toNat)

/-- An instruction of two sources a and b (or the literal) and a result with flags. -/
def State.alu2 (s : State) (i : Instr) (o : Ops) (f : Word → Word → Word × BitVec 6) : Host.Outcome State Fault Refusal :=
  s.run i (do
    let x ← s.srcA o
    let y ← s.srcBL o
    let r := f x y
    (s.flag r.2).complete o r.1)
/-- An instruction of source a and an immediate. -/
def State.aluImm (s : State) (i : Instr) (o : Ops) (y : Word) (f : Word → Word → Word × BitVec 6) :
    Host.Outcome State Fault Refusal :=
  s.run i (do
    let x ← s.srcA o
    let r := f x y
    (s.flag r.2).complete o r.1)
/-- A result that raises no flag. -/
def plain (f : Word → Word → Word) (x y : Word) : Word × BitVec 6 := (f x y, 0)

/-- Continue at an address (R89, R90). -/
def State.goto (s : State) (a : Word) : State := s.setTask { s.task with pc := a, wait := .none }

/-- A branch (R89). -/
def State.branch (s : State) (i : Instr) (o : Ops) (c : Word → Word → Bool) : Host.Outcome State Fault Refusal :=
  s.run i (do
    let x ← s.srcA o
    let y ← s.srcB o
    let s1 := s.take o
    .ok (if c x y then s1.goto (s.task.pc + o.imm13 * 4) else s1.advance o))

/-- NOP (R59). -/
def execNop (o : Ops) (s : State) : Host.Outcome State Fault Refusal := .next (s.advance o)

/-- ADD (R80). -/
def execAdd (o : Ops) (s : State) : Host.Outcome State Fault Refusal :=
  s.alu2 (.add o) o (arith (· + ·) o.ity o.sat)

/-- SUB (R80). -/
def execSub (o : Ops) (s : State) : Host.Outcome State Fault Refusal :=
  s.alu2 (.sub o) o (arith (· - ·) o.ity o.sat)

/-- MUL (R81). -/
def execMul (o : Ops) (s : State) : Host.Outcome State Fault Refusal :=
  s.alu2 (.mul o) o (arith (· * ·) o.ity o.sat)

/-- MULH (R81). -/
def execMulh (o : Ops) (s : State) : Host.Outcome State Fault Refusal :=
  s.alu2 (.mulh o) o (plain (mulHigh o.ity))

/-- DIV (R82). -/
def execDiv (o : Ops) (s : State) : Host.Outcome State Fault Refusal :=
  s.alu2 (.div o) o (plain (divide o.ity))

/-- REM (R82). -/
def execRem (o : Ops) (s : State) : Host.Outcome State Fault Refusal :=
  s.alu2 (.rem o) o (plain (remainder o.ity))

/-- AND (R84). -/
def execAnd (o : Ops) (s : State) : Host.Outcome State Fault Refusal :=
  s.alu2 (.and o) o (plain (logic (· &&& ·) o.ity))

/-- OR (R84). -/
def execOr (o : Ops) (s : State) : Host.Outcome State Fault Refusal :=
  s.alu2 (.or o) o (plain (logic (· ||| ·) o.ity))

/-- XOR (R84). -/
def execXor (o : Ops) (s : State) : Host.Outcome State Fault Refusal :=
  s.alu2 (.xor o) o (plain (logic (· ^^^ ·) o.ity))

/-- ANDN (R84). -/
def execAndn (o : Ops) (s : State) : Host.Outcome State Fault Refusal :=
  s.alu2 (.andn o) o (plain (logic (fun x y => x &&& ~~~y) o.ity))

/-- ORN (R84). -/
def execOrn (o : Ops) (s : State) : Host.Outcome State Fault Refusal :=
  s.alu2 (.orn o) o (plain (logic (fun x y => x ||| ~~~y) o.ity))

/-- XNOR (R84). -/
def execXnor (o : Ops) (s : State) : Host.Outcome State Fault Refusal :=
  s.alu2 (.xnor o) o (plain (logic (fun x y => ~~~(x ^^^ y)) o.ity))

/-- SHL (R85). -/
def execShl (o : Ops) (s : State) : Host.Outcome State Fault Refusal :=
  s.alu2 (.shl o) o (plain (shift shlBits o.ity))

/-- SHR (R85). -/
def execShr (o : Ops) (s : State) : Host.Outcome State Fault Refusal :=
  s.alu2 (.shr o) o (plain (shift shrBits o.ity))

/-- SAR (R85). -/
def execSar (o : Ops) (s : State) : Host.Outcome State Fault Refusal :=
  s.alu2 (.sar o) o (plain (shift sarBits o.ity))

/-- ROL (R85). -/
def execRol (o : Ops) (s : State) : Host.Outcome State Fault Refusal :=
  s.alu2 (.rol o) o (plain (shift rolBits o.ity))

/-- ROR (R85). -/
def execRor (o : Ops) (s : State) : Host.Outcome State Fault Refusal :=
  s.alu2 (.ror o) o (plain (shift rorBits o.ity))

/-- MIN (R83). -/
def execMin (o : Ops) (s : State) : Host.Outcome State Fault Refusal :=
  s.alu2 (.min o) o (plain (lesser o.ity))

/-- MAX (R83). -/
def execMax (o : Ops) (s : State) : Host.Outcome State Fault Refusal :=
  s.alu2 (.max o) o (plain (greater o.ity))

/-- CMP (R86). -/
def execCmp (k : CmpCond) (o : Ops) (s : State) : Host.Outcome State Fault Refusal :=
  s.alu2 (.cmp k o) o (plain fun x y => if k.holds (valOf o.ity x.toNat) (valOf o.ity y.toNat) then 1 else 0)

/-- SEL (R87). -/
def execSel (o : Ops) (s : State) : Host.Outcome State Fault Refusal :=
  s.run (.sel o) (do
    let x ← s.srcA o
    let y ← s.srcB o
    let z ← s.srcC o
    s.complete o (if x ≠ 0 then y else z))

/-- ADDI (R80). -/
def execAddi (o : Ops) (s : State) : Host.Outcome State Fault Refusal :=
  s.aluImm (.addi o) o o.imm13 (arith (· + ·) o.ity o.sat)

/-- ANDI (R84). -/
def execAndi (o : Ops) (s : State) : Host.Outcome State Fault Refusal :=
  s.aluImm (.andi o) o o.imm8 (plain (logic (· &&& ·) o.ity))

/-- ORI (R84). -/
def execOri (o : Ops) (s : State) : Host.Outcome State Fault Refusal :=
  s.aluImm (.ori o) o o.imm8 (plain (logic (· ||| ·) o.ity))

/-- XORI (R84). -/
def execXori (o : Ops) (s : State) : Host.Outcome State Fault Refusal :=
  s.aluImm (.xori o) o o.imm8 (plain (logic (· ^^^ ·) o.ity))

/-- SHLI (R85). -/
def execShli (o : Ops) (s : State) : Host.Outcome State Fault Refusal :=
  s.aluImm (.shli o) o o.imm8 (plain (shift shlBits o.ity))

/-- SHRI (R85). -/
def execShri (o : Ops) (s : State) : Host.Outcome State Fault Refusal :=
  s.aluImm (.shri o) o o.imm8 (plain (shift shrBits o.ity))

/-- SARI (R85). -/
def execSari (o : Ops) (s : State) : Host.Outcome State Fault Refusal :=
  s.aluImm (.sari o) o o.imm8 (plain (shift sarBits o.ity))

/-- ROLI (R85). -/
def execRoli (o : Ops) (s : State) : Host.Outcome State Fault Refusal :=
  s.aluImm (.roli o) o o.imm8 (plain (shift rolBits o.ity))

/-- RORI (R85). -/
def execRori (o : Ops) (s : State) : Host.Outcome State Fault Refusal :=
  s.aluImm (.rori o) o o.imm8 (plain (shift rorBits o.ity))

/-- LI (R88). -/
def execLi (o : Ops) (s : State) : Host.Outcome State Fault Refusal := s.run (.li o) (s.complete o o.imm13)

/-- LIH (R88): the literal in bits 63:32, a[31:0] below. -/
def execLih (o : Ops) (s : State) : Host.Outcome State Fault Refusal :=
  s.run (.lih o) (do
    let x ← s.srcA o
    s.complete o (o.lit ++ x.extractLsb' 0 32 : BitVec 64))

/-- BEQ (R89). -/
def execBeq (o : Ops) (s : State) : Host.Outcome State Fault Refusal := s.branch (.beq o) o fun x y => x == y

/-- BNE (R89). -/
def execBne (o : Ops) (s : State) : Host.Outcome State Fault Refusal := s.branch (.bne o) o fun x y => x != y

/-- BLT (R89). -/
def execBlt (o : Ops) (s : State) : Host.Outcome State Fault Refusal := s.branch (.blt o) o fun x y => x.slt y

/-- BGE (R89). -/
def execBge (o : Ops) (s : State) : Host.Outcome State Fault Refusal := s.branch (.bge o) o fun x y => !x.slt y

/-- BLO (R89). -/
def execBlo (o : Ops) (s : State) : Host.Outcome State Fault Refusal := s.branch (.blo o) o fun x y => x.ult y

/-- BHS (R89). -/
def execBhs (o : Ops) (s : State) : Host.Outcome State Fault Refusal := s.branch (.bhs o) o fun x y => !x.ult y

/-- JAL (R90). -/
def execJal (o : Ops) (s : State) : Host.Outcome State Fault Refusal :=
  s.run (.jal o) (do
    let s1 ← s.put o (s.task.pc + BitVec.ofNat 64 o.len.bytes)
    .ok (s1.goto (s.task.pc + o.imm18 * 4)))

/-- JALR (R90): a misaligned target takes the alignment fault with the target as its address and writes nothing. -/
def execJalr (o : Ops) (s : State) : Host.Outcome State Fault Refusal :=
  s.run (.jalr o) (do
    let x ← s.srcA o
    let target := x + o.imm13
    need (target.extractLsb' 0 2 == 0) (Stop.alignment target)
    let s1 ← s.put o (s.task.pc + BitVec.ofNat 64 o.len.bytes)
    .ok ((s1.take o).goto target))

/-- ADDPC (R90). -/
def execAddpc (o : Ops) (s : State) : Host.Outcome State Fault Refusal :=
  s.run (.addpc o) (s.complete o (s.task.pc + o.imm18))

/-- ILLEGAL_INSTRUCTION (R60): an undefined encoding takes the precise illegal-instruction trap with its cause. -/
def execIllegalInstruction (cause : BitVec 8) (word : BitVec 32) (s : State) : Host.Outcome State Fault Refusal :=
  .next (s.trap { kind := 1, detail := cause, info0 := word.setWidth 64 })

end Sys2Proof.Machine
end

