-- ==== Sys2Proof/Machine/Trace.lean ====
section
/-! DEFINITION. Rings as an agent reads them (R268), and the home ports' part in trace and replay (R373, R374): what a task's store does
before its port places it. -/

namespace Sys2Proof.Machine

open Sys2Proof

/-! ### Rings (R268) -/

/-- The bytes at a virtual address that an agent reads or writes whole within a line or page; none where it cannot, or not yet. -/
def State.agentLoc (s : State) (w : Who) (n : Want) (va : Word) : Option Nat :=
  match s.check w n va with | .ok (.phys pa _) => if s.halters.any (·.line == lineOf pa) then none else some pa | _ => none
/-- Must an agent's access wait: for a hand-over (R98), a halter (R168) or a way between the dies (R360)? -/
def State.agentWaits (s : State) (w : Who) (n : Want) (va : Word) : Bool :=
  match s.check w n va with
  | .ok (.phys pa _) => s.halters.any (·.line == lineOf pa)
  | .ok (.scratch _) => false
  | .error b => b.waits

/-- A ring header. -/
structure Ring where
  pa : Nat
  wp : Nat
  rp : Nat
  base : Word
  nslot : Nat
  slotb : Nat
  freec : Word
deriving DecidableEq, Repr

/-- The header at a physical address (R268). -/
def State.ringAt (s : State) (pa : Nat) : Ring where
  pa := pa
  wp := s.word pa
  rp := s.word (pa + 8)
  base := BitVec.ofNat 64 (s.word (pa + 16))
  nslot := s.mem.read (pa + 24) 4
  slotb := s.mem.read (pa + 28) 4
  freec := BitVec.ofNat 64 (s.word (pa + 32))

/-- Limits of R268. DEDUCED: assumption 48. -/
def Ring.legal (r : Ring) : Bool :=
  decide (1 ≤ r.nslot) && decide (r.nslot ≤ 2 ^ 20) && r.slotb % 64 == 0 && decide (64 ≤ r.slotb) && decide (r.slotb ≤ 65536) &&
    r.base.toNat % 64 == 0

/-- Slots published and not released (R269), exactly. DEDUCED: assumption 48. -/
def Ring.used (r : Ring) : Int := (r.wp : Int) - r.rp

/-! ### Home ports (R373, R374) -/

/-- The paddock's trace mode (R373, R383). -/
def Paddock.traceMode (p : Paddock) : BitVec 2 := if p.feat.getLsbD 2 then p.dbgctl.extractLsb' 0 2 else 0
/-- A home port's place in the order of PORT (R374, R380): 160 slices and 4,608 channel controllers on each die.
DEDUCED: assumption 58. -/
def portIndex (port : BitVec 22) : Nat :=
  let die := (port.extractLsb' 19 2).toNat
  let n := (port.extractLsb' 0 19).toNat
  if port.getLsbD 21 then 640 + 4608 * die + n else 160 * die + n
/-- Who a home port reads its ring as. DEDUCED: assumption 40. -/
def Paddock.portWho (p : Paddock) (port : BitVec 22) : Who :=
  { core := 2304 * (port.extractLsb' 19 2).toNat, aspace := p.cfg.aspace, sup := true, tenant := p.cfg.tenant }
/-- Address of the header of a home port's ring. -/
def Paddock.ringVa (p : Paddock) (port : BitVec 22) : Word := p.cfg.trace + BitVec.ofNat 64 (64 * portIndex port)
/-- The ring of a home port, where it can be reached. -/
def State.traceRing (s : State) (p : Paddock) (port : BitVec 22) : Option Ring :=
  if p.cfg.trace = 0 then none
  else (s.agentLoc (p.portWho port) { r := true, w := true } (p.ringVa port)).map s.ringAt
/-- Physical address of the slot of entry k of a ring. -/
def State.traceSlot (s : State) (p : Paddock) (port : BitVec 22) (r : Ring) (k : Nat) : Option Nat :=
  s.agentLoc (p.portWho port) { r := true, w := true } (r.base + BitVec.ofNat 64 (k % r.nslot * r.slotb))
/-- Key of what a home port keeps for a paddock. -/
def tracePortKey (tenant : BitVec 12) (port : BitVec 22) : Nat := (tenant ++ port).toNat
def State.tracePort (s : State) (tenant : BitVec 12) (port : BitVec 22) : TracePort := smapGet {} s.tracePorts (tracePortKey tenant port)
def State.setTracePort (s : State) (tenant : BitVec 12) (port : BitVec 22) (x : TracePort) : State :=
  { s with tracePorts := smapSet {} s.tracePorts (tracePortKey tenant port) x }

/-- A 16-byte trace entry (R373): sequence number, source core, physical address. DEDUCED: assumption 58. -/
def traceEntry (seq : BitVec 32) (src : BitVec 14) (pa : Word) : BitVec 128 := (pa ++ 0#18 ++ src ++ seq : BitVec 128)

/-- Entry k of a ring as it stands in memory; 0 where it cannot be read. -/
def State.traceAt (s : State) (p : Paddock) (port : BitVec 22) (r : Ring) (k : Nat) : BitVec 128 :=
  match s.traceSlot p port r k with | some q => BitVec.ofNat 128 (s.mem.read q 16) | none => 0
def traceSrc (e : BitVec 128) : BitVec 14 := e.extractLsb' 32 14
def tracePa (e : BitVec 128) : Word := e.extractLsb' 64 64
/-- Does an arrival match an entry (R374)? -/
def traceMatch (e : BitVec 128) (a : BitVec 14 × Word) : Bool := traceSrc e == a.1 && tracePa e == a.2

/-- Write the trace entry of an arrival (R373): none where the ring is full, or cannot be reached. -/
def State.traceWrite (s : State) (p : Paddock) (port : BitVec 22) (r : Ring) (src : BitVec 14) (pa : Word) : Option State :=
  if (r.nslot : Int) ≤ r.used then none
  else match s.traceSlot p port r r.wp with
  | none => none
  | some q =>
    let x := s.tracePort p.cfg.tenant port
    some (((s.poke q 16 (traceEntry x.seq src pa).toNat).poke r.pa 8 (r.wp + 1)).setTracePort p.cfg.tenant port { x with seq := x.seq + 1 })

/-- The home port that places a task's store (R373, R374): the line's L2 slice on the core's die, or for a UNC page the channel
controller on the owning die's side, numbered 576 × (position among the die's eight stacks) + channel. DEDUCED: assumption 58. -/
def State.portOf (s : State) (core pa : Nat) (e : Word) : BitVec 22 :=
  if pteMode e = 2 then
    let k := stackOf pa
    let die := s.homeDie pa
    1#1 ++ BitVec.ofNat 2 die ++ BitVec.ofNat 19 (576 * ((if k / 4 = die then 0 else 4) + k % 4) + channelOf pa)
  else 0#1 ++ BitVec.ofNat 2 (core / 2304) ++ BitVec.ofNat 19 (sliceOf pa)

/-- How many of the next entries, at most eight, there are. -/
def Ring.near (r : Ring) : Nat := min 8 (r.wp - r.rp)
/-- Does an arrival match one of the next eight entries (R374)? -/
def State.traceNear (s : State) (p : Paddock) (port : BitVec 22) (r : Ring) (a : BitVec 14 × Word) : Bool :=
  (List.range r.near).any fun k => traceMatch (s.traceAt p port r (r.rp + k)) a
/-- Does an arrival match the next entry? -/
def State.traceFirst (s : State) (p : Paddock) (port : BitVec 22) (r : Ring) (a : BitVec 14 × Word) : Bool :=
  decide (r.rp < r.wp) && traceMatch (s.traceAt p port r r.rp) a

/-- A home port places the arrival of a core at an address (R373, R374): in record mode its entry is written, in replay mode it is the next
entry. None: the port holds it, while the ring is full or until its turn comes. A line that the core holds exclusive never comes to a
port. DEDUCED: assumption 58. -/
def State.placeAt (s : State) (p : Paddock) (core pa : Nat) (e : Word) : Option State :=
  if p.traceMode = 0 ∨ p.traceMode = 3 ∨ (pteMode e = 0 ∧ (s.line core (lineOf pa)).excl = true) then some s
  else
    let port := s.portOf core pa e
    let a : BitVec 14 × Word := (BitVec.ofNat 14 core, BitVec.ofNat 64 pa)
    match s.traceRing p port with
    | none => if p.cfg.trace ≠ 0 ∧ s.agentWaits (p.portWho port) { r := true, w := true } (p.ringVa port) = true then none else some s
    | some r =>
      if p.traceMode = 1 then s.traceWrite p port r a.1 a.2
      else if s.traceFirst p port r a then some (s.poke (r.pa + 8) 8 (r.rp + 1))
      else none

/-- What tracing does with a plain store, AMO, CAS or FAMO of a task before its home port places it (R373, R374).
DEDUCED: assumption 58. -/
def State.tracedFor (s : State) (t : Task) (l : Loc) : Except Stop State :=
  match l, s.paddock t.tenant with
  | .phys pa e, some p =>
    match s.placeAt p t.core pa e with
    | some s1 => .ok s1
    | none =>
      if p.traceMode = 1 then .error (.wait .retry)
      else .error (.wait (.traced (s.portOf t.core pa e) pa (match t.wait with | .traced _ _ c => c | _ => s.clk)))
  | _, _ => .ok s

/-- Tracing of an access of the executing task. -/
def State.traced (s : State) (l : Loc) : Except Stop State := s.tracedFor s.task l

/-- The arrivals that a task has at home ports which hold them in replay (R374): its waiting store, and the sinks of its streams, each
with its port, its address and the clk of its arrival. -/
def Task.heldArrivals (t : Task) : List (BitVec 22 × Nat × Nat) :=
  (match t.wait with | .traced q pa c => if t.cstate = .waiting then [(q, pa, c)] else [] | _ => []) ++
    (if t.streaming then t.streams.toList.filterMap (·.traced) else [])
/-- Does an arrival that its port holds wait for one that came to the port before it? -/
def State.heldBefore (s : State) (tenant : BitVec 12) (port : BitVec 22) (since : Nat) : Bool :=
  s.tasks.any fun u => u.tenant == tenant && u.heldArrivals.any fun x => x.1 == port && decide (x.2.2 < since)
/-- May the arrival of a task that its port holds go on (R374): does it match the next entry, or, once the paddock replays no longer, did
no other held arrival come before it? -/
def State.traceFree (s : State) (t : Task) (x : BitVec 22 × Nat × Nat) : Bool :=
  match s.paddock t.tenant with
  | none => true
  | some p =>
    if p.traceMode ≠ 2 then !s.heldBefore t.tenant x.1 x.2.2 else
      (match s.traceRing p x.1 with
       | none => true
       | some r => s.traceFirst p x.1 r (BitVec.ofNat 14 t.core, BitVec.ofNat 64 x.2.1))

/-- A store, AMO, CAS or FAMO of the executing task: the trace, then the store. -/
def State.tracedStore (s : State) (va : Word) (l : Loc) (n v : Nat) : Except Stop State := do
  let s1 ← s.traced l
  s1.storeLoc va l n v

/-- A plain store that an instruction makes: its address, place, size and value. -/
structure Put where
  va : Word
  loc : Loc
  n : Nat
  v : Nat
deriving DecidableEq, Repr
/-- The stores of the executing instruction from number `k` on, one after another: where one must wait, those before it have been made
(R373, R374). DEDUCED: assumption 58. -/
def State.storeFrom (s : State) : Nat → List Put → Except Stop State
  | _, [] => .ok (s.setTask { s.task with stored := none })
  | k, x :: xs =>
    match s.tracedStore x.va x.loc x.n x.v with
    | .ok s1 => s1.storeFrom (k + 1) xs
    | .error (.wait w) =>
      .error (if k = 0 then .wait w else .partly (s.setTask { s.task with stored := some (s.task.pc, k) }) w)
    | .error e => .error e
/-- How many of its stores the instruction at the program counter has made. -/
def Task.storesMade (t : Task) : Nat := match t.stored with | some (pc, k) => if pc = t.pc then k else 0 | none => 0
/-- The stores of the executing instruction, without those that it has made before it waited. -/
def State.storeEach (s : State) (xs : List Put) : Except Stop State := s.storeFrom s.task.storesMade (xs.drop s.task.storesMade)

end Sys2Proof.Machine
end

