-- ==== Sys2Proof/Machine/Vector.lean ====
section
/-! DEFINITION. The vector and predicate instructions (R108 to R135). -/

namespace Sys2Proof.Machine

open Sys2Proof

/-- The .z qualifier (R111), and .sat of the lane instructions (R114). -/
def zOf (o : Ops) : Bool := o.x.mod.getLsbD 0
def satOf (o : Ops) : Bool := o.x.mod.getLsbD 1

/-- Write the results of the active elements to d and complete (R111). DEDUCED: assumption 8. -/
def State.lanesOut (s : State) (o : Ops) (w act : Nat) (tag : Fmt) (rs : List (Nat × BitVec 6)) : State :=
  s.doneTask o (s.task.wrGroup o.d (s.task.span o) w act (zOf o) tag (s.laneScale tag) fun i => (rs.getD i (0, 0)).1)
    (rs.foldl (fun f r => f ||| r.2) 0)

/-- Results of `act` elements. -/
def lanesOf (act : Nat) (f : Nat → Nat × BitVec 6) : List (Nat × BitVec 6) := (List.range act).map f

/-- A lane instruction of sources a and, where `binary`, b (R121): tag checks, group checks, the .sat rule of R114, then each
active element. DEDUCED: assumption 26. -/
def State.lane (s : State) (i : Instr) (o : Ops) (accept : BitVec 32) (binary sat : Bool)
    (op : Fmt → Nat → Nat → Nat × BitVec 6) : Host.Outcome State Fault Refusal :=
  s.run i (do
    let t := s.task
    let n := t.span o
    let f ← t.laneFormat o accept binary
    groupFits o.d n
    groupFits o.a n
    if binary then groupFits o.b n else .ok ()
    need (!(sat && f.isFloat)) Stop.illegalOperand
    let w := laneBits f
    let x := groupNat (t.group o.a n)
    let y := groupNat (t.group o.b n)
    let act := t.active o w
    .ok (s.lanesOut o w act f (lanesOf act fun k => op f (elemAt x w k) (elemAt y w k))))

/-- An operation that is integer in the integer formats and floating in the others (R122, R123). -/
def laneArith (fi : Int → Int → Int) (ff : FNum → FNum → FNum × Bool) (sat : Bool) (f : Fmt) (x y : Nat) : Nat × BitVec 6 :=
  if Fmt.isFp f then (ffmt f).result (ff ((ffmt f).decode x) ((ffmt f).decode y))
  else narrow f sat (fi (valOf f x) (valOf f y))

/-- VADD (R121 to R123). -/
def execVadd (o : Ops) (s : State) : Host.Outcome State Fault Refusal :=
  s.lane (.vadd o) o intFloats true (satOf o) (laneArith (· + ·) addNum (satOf o))
/-- VSUB (R121 to R123). -/
def execVsub (o : Ops) (s : State) : Host.Outcome State Fault Refusal :=
  s.lane (.vsub o) o intFloats true (satOf o) (laneArith (· - ·) (fun a b => addNum a b.neg) (satOf o))
/-- VMUL (R121 to R123). -/
def execVmul (o : Ops) (s : State) : Host.Outcome State Fault Refusal :=
  s.lane (.vmul o) o intFloats true (satOf o) (laneArith (· * ·) mulNum (satOf o))
/-- VMULH (R122). -/
def execVmulh (o : Ops) (s : State) : Host.Outcome State Fault Refusal :=
  s.lane (.vmulh o) o intTags true false fun f x y => narrow f false (valOf f x * valOf f y / 2 ^ Fmt.width f)
/-- VDIV (R123). -/
def execVdiv (o : Ops) (s : State) : Host.Outcome State Fault Refusal :=
  s.lane (.vdiv o) o floats true false fun f x y =>
    let q := divNum ((ffmt f).decode x) ((ffmt f).decode y)
    let r := (ffmt f).ofNum .rne 0 q.1
    (r.1, r.2 ||| q.2)

/-- The lesser (or greater) element in the format (R122, R123). -/
def laneMinMax (greatest : Bool) (f : Fmt) (x y : Nat) : Nat × BitVec 6 :=
  if Fmt.isFp f then (ffmt f).minmax greatest x y
  else (if decide (valOf f x < valOf f y) != greatest then x else y, 0)

/-- VMIN (R122, R123). -/
def execVmin (o : Ops) (s : State) : Host.Outcome State Fault Refusal := s.lane (.vmin o) o intFloats true false (laneMinMax false)
/-- VMAX (R122, R123). -/
def execVmax (o : Ops) (s : State) : Host.Outcome State Fault Refusal := s.lane (.vmax o) o intFloats true false (laneMinMax true)
/-- VABS (R122, R123): a floating format changes only the sign bit. -/
def execVabs (o : Ops) (s : State) : Host.Outcome State Fault Refusal :=
  s.lane (.vabs o) o intFloats false (satOf o) fun f x _ =>
    if Fmt.isFp f then (x % 2 ^ (laneBits f - 1), 0) else narrow f (satOf o) (valOf f x).natAbs
/-- VNEG (R122, R123). -/
def execVneg (o : Ops) (s : State) : Host.Outcome State Fault Refusal :=
  s.lane (.vneg o) o intFloats false (satOf o) fun f x _ =>
    if Fmt.isFp f then (x ^^^ 2 ^ (laneBits f - 1), 0) else narrow f (satOf o) (-valOf f x)
/-- VAND (R121). -/
def execVand (o : Ops) (s : State) : Host.Outcome State Fault Refusal := s.lane (.vand o) o anyTag true false fun _ x y => (x &&& y, 0)
/-- VOR (R121). -/
def execVor (o : Ops) (s : State) : Host.Outcome State Fault Refusal := s.lane (.vor o) o anyTag true false fun _ x y => (x ||| y, 0)
/-- VXOR (R121). -/
def execVxor (o : Ops) (s : State) : Host.Outcome State Fault Refusal := s.lane (.vxor o) o anyTag true false fun _ x y => (x ^^^ y, 0)
/-- VANDN (R121). -/
def execVandn (o : Ops) (s : State) : Host.Outcome State Fault Refusal :=
  s.lane (.vandn o) o anyTag true false fun f x y => (x &&& (y ^^^ (2 ^ laneBits f - 1)), 0)

/-- The VFMA group (R124): ±(a × b) ± c, exact and rounded once. -/
def State.fma (s : State) (i : Instr) (o : Ops) (np nc : Bool) : Host.Outcome State Fault Refusal :=
  s.run i (do
    let t := s.task
    let n := t.span o
    let f ← t.laneFormat o intFloats true
    if o.x.ri then .ok () else t.tagsAre 2 o.x.c n f true f
    groupFits o.d n
    groupFits o.a n
    groupFits o.b n
    groupFits o.x.c n
    need (!(satOf o && f.isFloat)) Stop.illegalOperand
    let w := laneBits f
    let x := groupNat (t.group o.a n)
    let y := groupNat (t.group o.b n)
    let z := groupNat (t.group o.x.c n)
    let act := t.active o w
    .ok (s.lanesOut o w act f (lanesOf act fun k =>
      let a := elemAt x w k
      let b := elemAt y w k
      let c := elemAt z w k
      if Fmt.isFp f then
        let d := (ffmt f).decode
        (ffmt f).result (fmaNum (if np then (d a).neg else d a) (d b) (if nc then (d c).neg else d c))
      else
        narrow f (satOf o) ((if np then -1 else 1) * (valOf f a * valOf f b) + (if nc then -1 else 1) * valOf f c))))

/-- VFMA (R124). -/
def execVfma (o : Ops) (s : State) : Host.Outcome State Fault Refusal := s.fma (.vfma o) o false false
/-- VFMS (R124). -/
def execVfms (o : Ops) (s : State) : Host.Outcome State Fault Refusal := s.fma (.vfms o) o false true
/-- VFNMA (R124). -/
def execVfnma (o : Ops) (s : State) : Host.Outcome State Fault Refusal := s.fma (.vfnma o) o true false
/-- VFNMS (R124). -/
def execVfnms (o : Ops) (s : State) : Host.Outcome State Fault Refusal := s.fma (.vfnms o) o true true

/-- A vector shift (R125): the amount of element i is element i of b, or under .sa the value of g b. DEDUCED: assumption 26. -/
def State.vshift (s : State) (i : Instr) (o : Ops) (sh : Nat → Nat → Nat → Nat) : Host.Outcome State Fault Refusal :=
  s.run i (do
    let t := s.task
    let n := t.span o
    let sa := satOf o
    let g ← if sa then s.srcB o else .ok 0
    let f ← t.laneFormat o intTags false
    if sa || o.x.ri then .ok () else t.tagsIn 1 o.b n (sameWidthInt f)
    groupFits o.d n
    groupFits o.a n
    if sa then .ok () else groupFits o.b n
    let w := laneBits f
    let x := groupNat (t.group o.a n)
    let y := groupNat (t.group o.b n)
    let act := t.active o w
    .ok (s.lanesOut o w act f (lanesOf act fun k => (sh w (elemAt x w k) (if sa then g.toNat else elemAt y w k), 0))))

/-- VSHL (R125). -/
def execVshl (o : Ops) (s : State) : Host.Outcome State Fault Refusal := s.vshift (.vshl o) o shlBits
/-- VSHR (R125). -/
def execVshr (o : Ops) (s : State) : Host.Outcome State Fault Refusal := s.vshift (.vshr o) o shrBits
/-- VSAR (R125). -/
def execVsar (o : Ops) (s : State) : Host.Outcome State Fault Refusal := s.vshift (.vsar o) o sarBits
/-- VROL (R125). -/
def execVrol (o : Ops) (s : State) : Host.Outcome State Fault Refusal := s.vshift (.vrol o) o rolBits
/-- VROR (R125). -/
def execVror (o : Ops) (s : State) : Host.Outcome State Fault Refusal := s.vshift (.vror o) o rorBits

/-- A condition between two elements of a format, with its flag (R126). -/
def vcmpHolds (k : VCmpCond) (f : Fmt) (x y : Nat) : Bool × BitVec 6 :=
  if Fmt.isFp f then
    let a := (ffmt f).decode x
    let b := (ffmt f).decode y
    let un := a.isNan || b.isNan
    let quiet := k == .eq || k == .ne || k == .un
    ((match k with
      | .eq => eqNum a b
      | .ne => !eqNum a b
      | .lt => !un && ltNum a b
      | .ge => !un && !ltNum a b
      | .gt => !un && ltNum b a
      | .le => !un && !ltNum b a
      | .un => un),
     flagIf (if quiet then a.isSnan || b.isSnan else un) flagNV)
  else
    let a := valOf f x
    let b := valOf f y
    ((match k with
      | .eq => decide (a = b) | .ne => decide (a ≠ b) | .lt => decide (a < b) | .ge => decide (b ≤ a)
      | .gt => decide (b < a) | .le => decide (a ≤ b) | .un => false), 0)

/-- VCMP (R126): .un with an integer format raises cause 5, and the destination takes the N tag of the operand width with .ri too (R113).
DEDUCED: assumption 27. -/
def execVcmp (k : VCmpCond) (o : Ops) (s : State) : Host.Outcome State Fault Refusal :=
  s.run (.vcmp k o) (do
    let t := s.task
    let n := t.span o
    let f ← t.laneFormat o intFloats true
    need (!(k == .un && f.isInt)) (.trap { kind := 1, detail := 5 })
    groupFits o.d n
    groupFits o.a n
    groupFits o.b n
    let w := laneBits f
    let x := groupNat (t.group o.a n)
    let y := groupNat (t.group o.b n)
    let act := t.active o w
    .ok (s.lanesOut o w act (nOf w) (lanesOf act fun j =>
      let r := vcmpHolds k f (elemAt x w j) (elemAt y w j)
      (if r.1 then 2 ^ w - 1 else 0, r.2))))

/-- VSEL (R127). DEDUCED: assumption 26. -/
def execVsel (o : Ops) (s : State) : Host.Outcome State Fault Refusal :=
  s.run (.vsel o) (do
    let t := s.task
    let n := t.span o
    let f ← t.laneFormat o anyTag true
    if o.x.ri then .ok () else t.tagsIn 2 o.x.c n (sameWidthInt f)
    groupFits o.d n
    groupFits o.a n
    groupFits o.b n
    groupFits o.x.c n
    let w := laneBits f
    let x := groupNat (t.group o.a n)
    let y := groupNat (t.group o.b n)
    let z := groupNat (t.group o.x.c n)
    let act := t.active o w
    .ok (s.lanesOut o w act f (lanesOf act fun k => (if elemAt z w k ≠ 0 then elemAt x w k else elemAt y w k, 0))))

/-- The draws of `n` elements under .rs, and SEED after them (R37); other modes draw nothing. -/
def Task.drawsFor (t : Task) (o : Ops) (n : Nat) : List (BitVec 16) × Word :=
  if o.x.rm = .rs then draws t.seed n else (List.replicate n 0, t.seed)

/-- VCVT (R128, R129): source elements that fill part of a register are read from it (DEDUCED, assumption 8).
DEDUCED: assumption 26. -/
def execVcvt (o : Ops) (s : State) : Host.Outcome State Fault Refusal :=
  s.run (.vcvt o) (do
    let t := s.task
    let n := t.span o
    let dst := o.x.tag
    let src := (t.rdV o.a.toNat).tag
    let wd := fmtBits dst
    let ws := fmtBits src
    let e := n * perReg wd
    let b := e * ws
    let part := (o.x.mod.extractLsb' 2 3).toNat
    let k := if 128 ≤ b then (b + 127) / 128 else 1
    t.tagsAre 0 o.a k src (src != .raw) .raw
    groupFits o.d n
    groupFits o.a k
    need (if 128 ≤ b then part == 0 else (part + 1) * b ≤ 128) Stop.illegalOperand
    let regs := t.group o.a k
    let x := groupNat regs
    let first := if 128 ≤ b then 0 else part * e
    let el (i : Nat) : Nat := elemAt x ws (first + i)
    let sc (i : Nat) : BitVec 8 := (regs.getD ((first + i) / perReg ws) {}).scale
    let act := t.active o wd
    let ds := t.drawsFor o e
    let s1 := s.setTask { t with seed := ds.2 }
    if dst.isBlock then
      let blk (j : Nat) := toBlock dst o.x.c.toNat o.x.rm ((ds.1.drop (32 * j)).take 32)
        ((List.range 32).map fun c => let i := 32 * j + c; if i < act then numOf src (sc i) (el i) else .fin false 0 0)
      let t1 := (List.range n).foldl (fun (p : Task × BitVec 6) j =>
        if 32 * j < act || zOf o then
          let r := blk j
          (p.1.wrV (o.d.toNat + j) { bits := BitVec.ofNat 128 (packElems 4 r.2.1), tag := dst, scale := r.1 }, p.2 ||| r.2.2)
        else p) (s1.task, 0)
      .ok (s1.doneTask o t1.1 t1.2)
    else
      .ok (s1.lanesOut o wd act dst (lanesOf act fun i => convert src dst (satOf o) o.x.rm (ds.1.getD i 0) (sc i) (el i))))

/-- Class of a VDOT operand: products per lane, and whether the accumulator is floating (R130). -/
def dotClass : Fmt → Option (Nat × Bool)
  | .i8 | .n8 => some (4, false)
  | .i4 | .n4 => some (8, false)
  | .fp16 | .bf16 => some (2, true)
  | .e4m3 | .e5m2 => some (4, true)
  | _ => none

/-- The low w bits as a signed or unsigned number (R44). -/
def signedBits (unsigned : Bool) (w x : Nat) : Int := if !unsigned && x.testBit (w - 1) then (x : Int) - 2 ^ w else x

/-- VDOT (R130). A tag field that names the accumulator of the other row is a format fault at a. DEDUCED: assumption 27. -/
def execVdot (o : Ops) (s : State) : Host.Outcome State Fault Refusal :=
  s.run (.vdot o) (do
    let t := s.task
    let n := t.span o
    let cl := dotClass (t.rdV o.a.toNat).tag
    let accOf (fl : Bool) : Fmt := if fl then .fp32 else .i32
    let same (g : Fmt) : Bool :=
      match cl with
      | none => false
      | some (k, fl) => dotClass g == some (k, fl) && (o.x.tag == .raw || o.x.tag == accOf fl)
    t.tagsIn 0 o.a n same
    t.tagsIn 1 o.b n same
    let fl := (cl.getD (4, false)).2
    let g := (cl.getD (4, false)).1
    t.tagsAre 3 o.d n (accOf fl) true (accOf fl)
    groupFits o.d n
    groupFits o.a n
    groupFits o.b n
    need (!(fl && (o.x.mod.getLsbD 2 || o.x.mod.getLsbD 3))) (.trap { kind := 1, detail := 5 })
    need (!(fl && satOf o)) Stop.illegalOperand
    let w := 32 / g
    let act := t.active o 32
    .ok (s.lanesOut o 32 act (accOf fl) (lanesOf act fun j =>
      let ra := t.rdV (o.a.toNat + j / 4)
      let rb := t.rdV (o.b.toNat + j / 4)
      let acc := elemAt (t.rdV (o.d.toNat + j / 4)).bits.toNat 32 (j % 4)
      let ea (k : Nat) : Nat := elemAt ra.bits.toNat w (g * (j % 4) + k)
      let eb (k : Nat) : Nat := elemAt rb.bits.toNat w (g * (j % 4) + k)
      if fl then
        groupStep acc ((List.range g).map fun k => ((ffmt ra.tag).decode (ea k), (ffmt rb.tag).decode (eb k)))
      else
        narrow .i32 (satOf o) (((List.range g).map fun k =>
          signedBits (o.x.mod.getLsbD 2) w (ea k) * signedBits (o.x.mod.getLsbD 3) w (eb k)).foldl (· + ·) (valOf .i32 acc)))))

/-- Floating sum of elements, rounded once (R131, R45). -/
def floatSum (f : Fmt) (xs : List Nat) : Nat × BitVec 6 :=
  let ns := xs.map (ffmt f).decode
  let infs := ns.filter FNum.isInf
  let meet := infs.any FNum.sign && infs.any (fun x => !x.sign)
  if ns.any FNum.isNan || meet then (ffmt f).nan (ns.any FNum.isSnan || meet)
  else match infs with
  | x :: _ => (ffmt f).ofNum .rne 0 x
  | [] =>
    let r := ns.foldl addFin (.fin false 0 0)
    if r.isZero then (0, 0) else (ffmt f).ofNum .rne 0 r

/-- A reduction of the active elements (R131). -/
def reduce (k : VRedOp) (f : Fmt) (sat : Bool) (xs : List Nat) : Nat × BitVec 6 :=
  let w := laneBits f
  match k with
  | .and => (xs.foldl (· &&& ·) (2 ^ w - 1), 0)
  | .or => (xs.foldl (· ||| ·) 0, 0)
  | .xor => (xs.foldl (· ^^^ ·) 0, 0)
  | .add => if Fmt.isFp f then floatSum f xs else narrow f sat ((xs.map (valOf f)).foldl (· + ·) 0)
  | .min | .max =>
    match xs with
    | [] =>
      if Fmt.isFp f then ((ffmt f).signed (k == .max) (ffmt f).infBits, 0)
      else (((if k = .min then hiOf f else loOf f) % 2 ^ w).toNat, 0)
    | x :: _ => xs.foldl (fun r y => let q := laneMinMax (k == .max) f r.1 y; (q.1, r.2 ||| q.2)) (x, 0)

/-- VRED (R131): the result in element 0 of the register d, the rest 0. -/
def execVred (k : VRedOp) (o : Ops) (s : State) : Host.Outcome State Fault Refusal :=
  s.run (.vred k o) (do
    let t := s.task
    let n := t.span o
    let f ← t.laneFormat o (if k = .add ∨ k = .min ∨ k = .max then intFloats else anyTag) false
    groupFits o.a n
    need (!(satOf o && f.isFloat)) Stop.illegalOperand
    let w := laneBits f
    let x := groupNat (t.group o.a n)
    let r := reduce k f (satOf o) ((List.range (t.active o w)).map (elemAt x w))
    let v : VReg := { bits := BitVec.ofNat 128 (r.1 % 2 ^ w), tag := f, scale := s.laneScale f 0 {} }
    .ok (s.doneTask o (t.wrV o.d.toNat v) r.2))

/-- VPERM.tbl (R132). -/
def execVpermTbl (o : Ops) (s : State) : Host.Outcome State Fault Refusal :=
  s.run (.vpermTbl o) (do
    let t := s.task
    let n := t.span o
    let f ← t.laneFormat o anyTag false
    let w := laneBits f
    if o.x.ri then .ok () else t.tagsAre 1 o.b n (nOf w) true (nOf w)
    groupFits o.d n
    groupFits o.a n
    groupFits o.b n
    let x := groupNat (t.group o.a n)
    let y := groupNat (t.group o.b n)
    let act := t.active o w
    .ok (s.lanesOut o w act f (lanesOf act fun k =>
      let j := elemAt y w k
      (if j < n * perReg w then elemAt x w j else 0, 0))))

/-- VPERM.bcast (R132). DEDUCED: assumption 26. -/
def execVpermBcast (o : Ops) (s : State) : Host.Outcome State Fault Refusal :=
  s.run (.vpermBcast o) (do
    let t := s.task
    let n := t.span o
    let j ← s.srcB o
    let f ← t.laneFormat o anyTag false
    groupFits o.d n
    groupFits o.a n
    let w := laneBits f
    let x := groupNat (t.group o.a n)
    let act := t.active o w
    .ok (s.lanesOut o w act f (lanesOf act fun _ => (if j.toNat < n * perReg w then elemAt x w j.toNat else 0, 0))))

/-- VPERM.rev (R132). -/
def execVpermRev (o : Ops) (s : State) : Host.Outcome State Fault Refusal :=
  s.run (.vpermRev o) (do
    let t := s.task
    let n := t.span o
    let f ← t.laneFormat o anyTag false
    groupFits o.d n
    groupFits o.a n
    let w := laneBits f
    let x := groupNat (t.group o.a n)
    let act := t.active o w
    .ok (s.lanesOut o w act f (lanesOf act fun k => (elemAt x w (n * perReg w - 1 - k), 0))))

/-- VSF (R133). DEDUCED: assumption 10. -/
def execVsf (k : SfFn) (o : Ops) (s : State) : Host.Outcome State Fault Refusal :=
  s.lane (.vsf k o) o floats false false fun f x _ =>
    let r := sfNum k ((ffmt f).decode x)
    let q := (ffmt f).ofNum .rne 0 r.1
    (q.1, q.2 ||| r.2)

/-- Candidate order of VTOPK (R134): does candidate (index, key) `a` come before `b`? -/
def topBefore (a b : Nat × FNum) : Bool :=
  if a.2.isNan then b.2.isNan && a.1 < b.1
  else b.2.isNan || ltNum b.2 a.2 || (!ltNum a.2 b.2 && a.1 < b.1)
/-- Insert in order. -/
def topInsert (x : Nat × FNum) : List (Nat × FNum) → List (Nat × FNum)
  | [] => [x]
  | y :: l => if topBefore x y then x :: y :: l else y :: topInsert x l
/-- The candidates in order (R134). -/
def topOrder (l : List (Nat × FNum)) : List (Nat × FNum) := l.foldl (fun acc x => topInsert x acc) []
/-- Absolute value of a key. -/
def absNum : FNum → FNum | .nan s => .nan s | .inf _ => .inf false | .fin _ m e => .fin false m e

/-- VTOPK (R134): the result predicate's SPAN is a free value where it does not fit (DESIGN CHOICE, assumption 12).
DEDUCED: assumption 26. -/
def execVtopk (o : Ops) (s : State) : Host.Outcome State Fault Refusal :=
  s.run (.vtopk o) (do
    let t := s.task
    let n := t.span o
    let kw ← s.srcB o
    let f ← t.laneFormat o intFloats false
    groupFits o.a n
    let w := laneBits f
    let k := kw.toNat
    need (1 ≤ k && k ≤ 64) Stop.illegalOperand
    let nv := (k * w + 127) / 128
    let ni := (k + 7) / 8
    groupFits o.d nv
    groupFits o.x.c ni
    need (!(o.d.toNat < o.x.c.toNat + ni && o.x.c.toNat < o.d.toNat + nv)) Stop.illegalOperand
    let x := groupNat (t.group o.a n)
    let keyOf (i : Nat) : FNum := let v := numOf f 0 (elemAt x w i); if o.x.mod.getLsbD 0 then absNum v else v
    let cands := ((List.range (t.active o w)).map fun i => (i, keyOf i)).filter fun c => !(o.x.mod.getLsbD 1 && c.2.isZero)
    let picks := (topOrder cands).map (·.1)
    let fill := if Fmt.isFp f then (ffmt f).signed true (ffmt f).infBits else (loOf f % 2 ^ w).toNat
    let t1 := t.wrGroup o.d nv w k true f (fun _ _ => 0) fun j => match picks[j]? with | some i => elemAt x w i | none => fill
    let t2 := t1.wrGroup o.x.c ni 16 k true .n16 (fun _ _ => 0) fun j => picks.getD j 0xFFFF
    let p : Pred := { span := if ni ≤ 7 then BitVec.ofNat 3 ni else Config.topkSpan s.free, ew := 2,
                      count := BitVec.ofNat 8 (min k picks.length) }
    .ok (s.doneTask o (t2.wrP (o.x.mod.extractLsb' 2 3) p) 0))

/-! ### Predicates (R116) -/

/-- PSET (R116). -/
def execPset (o : Ops) (s : State) : Host.Outcome State Fault Refusal :=
  s.run (.pset o) (do
    let x ← s.srcA o
    let w := laneBits o.x.tag
    let p : Pred := { span := BitVec.ofNat 3 o.b.toNat, ew := ewCode w, count := BitVec.ofNat 8 (min x.toNat (o.b.toNat * perReg w)) }
    .ok (s.doneTask o (s.task.wrP (o.d.setWidth 3) p) 0))
/-- PCNT (R116). -/
def execPcnt (o : Ops) (s : State) : Host.Outcome State Fault Refusal :=
  s.run (.pcnt o) (s.complete o ((s.task.rdP (o.a.setWidth 3)).count.setWidth 64))
/-- PRD (R116). -/
def execPrd (o : Ops) (s : State) : Host.Outcome State Fault Refusal :=
  s.run (.prd o) (s.complete o (s.task.rdP (o.a.setWidth 3)).image)
/-- The predicate of an image (R109). -/
def predOf (x : Word) : Pred := { span := x.extractLsb' 13 3, ew := x.extractLsb' 10 3, count := x.extractLsb' 0 8 }
/-- Is an image legal (R109, R116)? -/
def Pred.legal (p : Pred) : Bool :=
  1 ≤ p.span.toNat && p.span.toNat ≤ 6 && p.ew.toNat ≤ 4 && p.count.toNat ≤ p.span.toNat * perReg (ewBits p.ew)
/-- PWR (R116). -/
def execPwr (o : Ops) (s : State) : Host.Outcome State Fault Refusal :=
  s.run (.pwr o) (do
    let x ← s.srcA o
    need (predOf x).legal Stop.illegalOperand
    .ok (s.doneTask o (s.task.wrP (o.d.setWidth 3) (predOf x)) 0))
/-- PBRK (R116). -/
def execPbrk (o : Ops) (s : State) : Host.Outcome State Fault Refusal :=
  s.run (.pbrk o) (do
    let t := s.task
    let n := t.span o
    let f ← t.laneFormat o intTags false
    groupFits o.a n
    let w := laneBits f
    let x := groupNat (t.group o.a n)
    let lead := ((List.range (t.active o w)).takeWhile fun i => elemAt x w i != 0).length
    let p : Pred := { span := BitVec.ofNat 3 n, ew := ewCode w, count := BitVec.ofNat 8 lead }
    .ok (s.doneTask o (t.wrP (o.d.setWidth 3) p) 0))

/-! ### Moves (R135) -/

/-- VMOV copy (R135). -/
def execVmovCopy (o : Ops) (s : State) : Host.Outcome State Fault Refusal :=
  s.run (.vmovCopy o) (do
    let t := s.task
    let r := t.rdV o.a.toNat
    if o.x.tag ≠ .raw ∧ !o.x.ri then t.tagsAre 0 o.a 1 o.x.tag true o.x.tag else .ok ()
    need (o.m == 0) Stop.illegalOperand
    let tag := if o.x.ri then o.x.tag else r.tag
    .ok (s.doneTask o (t.wrV o.d.toNat { bits := r.bits, tag := tag, scale := if tag.isBlock then r.scale else 0 }) 0))
/-- VMOV broadcast (R135). -/
def execVmovBcast (o : Ops) (s : State) : Host.Outcome State Fault Refusal :=
  s.run (.vmovBcast o) (do
    let x ← s.srcBL o
    groupFits o.d (s.task.span o)
    let w := laneBits o.x.tag
    let act := s.task.active o w
    .ok (s.lanesOut o w act o.x.tag (lanesOf act fun _ => (x.toNat % 2 ^ w, 0))))
/-- VMOV .get (R135). DEDUCED: assumption 26. -/
def execVmovGet (o : Ops) (s : State) : Host.Outcome State Fault Refusal :=
  s.run (.vmovGet o) (do
    let y ← s.srcB o
    let r := s.task.rdV o.a.toNat
    if o.x.tag ≠ .raw then s.task.tagsAre 0 o.a 1 o.x.tag true o.x.tag else .ok ()
    let w := laneBits r.tag
    let sg := r.tag == .i4 || r.tag == .i8 || r.tag == .i16 || r.tag == .i32 || r.tag == .i64
    if y.toNat < perReg w then
      let x := elemAt r.bits.toNat w y.toNat
      s.complete o (if sg then extend r.tag x else BitVec.ofNat 64 x)
    else s.complete o 0)
/-- VMOV .set (R135). DEDUCED: assumption 28. -/
def execVmovSet (o : Ops) (s : State) : Host.Outcome State Fault Refusal :=
  s.run (.vmovSet o) (do
    let x ← s.srcA o
    let y ← s.srcB o
    let r := s.task.rdV o.d.toNat
    let tag := if o.x.tag ≠ .raw then o.x.tag else r.tag
    let w := laneBits tag
    let bits := packElems w ((List.range (perReg w)).map fun i => if i = y.toNat then x.toNat % 2 ^ w else elemAt r.bits.toNat w i)
    let v : VReg := { bits := BitVec.ofNat 128 bits, tag := tag, scale := if tag.isBlock then r.scale else 0 }
    .ok (s.doneTask o (if y.toNat < perReg w then s.task.wrV o.d.toNat v else s.task) 0))

/-! ### Loads and stores (R117 to R120) -/

/-- Effective address of VLD and VST (R117). -/
def State.vecAddr (s : State) (o : Ops) : Except Stop Word := do
  let x ← s.srcA o
  let y ← s.srcBL o
  .ok (x + y)

/-- The checked location of each of `k` accesses of `n` bytes, `stride` apart from `ea`: all checks first (R118). -/
def State.locs (s : State) (want : Want) (ea : Word) (stride : Nat) (k : Nat) : Except Stop (List (Word × Loc)) := do
  let ls ← (List.range k).mapM fun i => do
    let va := ea + BitVec.ofNat 64 (stride * i)
    let l ← s.access want va
    .ok (va, l)
  ls.forM fun l => s.notHaltered l.2
  .ok ls

/-- The executing task takes the data error of the first of several accesses of `n` bytes that has one (R240). -/
def State.noteErrors (s : State) (n : Nat) (ls : List (Word × Loc)) : State :=
  match ls.find? (fun l => s.locPoisoned l.2 n) with | some l => s.noteError l.1 l.2 n | none => s

/-- Perform the stores of a vector instruction, each a plain store of `n` bytes that its home port traces (R119, R373).
DEDUCED: assumption 58. -/
def State.storeAll (s : State) (n : Nat) (xs : List ((Word × Loc) × Nat)) : Except Stop State :=
  s.storeEach (xs.map fun x => { va := x.1.1, loc := x.1.2, n := n, v := x.2 })

/-- VLD (R117 to R119). DEDUCED: assumption 26. -/
def execVld (o : Ops) (s : State) : Host.Outcome State Fault Refusal :=
  s.run (.vld o) (do
    let t := s.task
    let n := t.span o
    let ea ← s.vecAddr o
    let w := max 8 (fmtBits o.x.tag)
    groupFits o.d n
    need (ea.toNat % (w / 8) == 0) (Stop.alignment ea)
    let act := t.active o w
    let ls ← s.locs { r := true } ea (w / 8) act
    let vs := ls.map fun l => s.loaded l.2 (w / 8)
    let t1 := (s.noteErrors (w / 8) ls).task.wrGroup o.d n w act false o.x.tag (fun _ _ => 0) fun i => vs.getD i 0
    let s1 := s.acquire o
    .ok (s1.doneTask o t1 0))

/-- VST (R117 to R119). DEDUCED: assumption 26. -/
def execVst (o : Ops) (s : State) : Host.Outcome State Fault Refusal :=
  s.run (.vst o) (do
    let t := s.task
    let n := t.span o
    let ea ← s.vecAddr o
    let f := if o.x.tag ≠ .raw then o.x.tag else (t.rdV o.d.toNat).tag
    t.tagsAre 3 o.d n f true f
    let w := max 8 (fmtBits f)
    groupFits o.d n
    need (ea.toNat % (w / 8) == 0) (Stop.alignment ea)
    let act := t.active o w
    let ls ← s.locs { w := true } ea (w / 8) act
    let x := groupNat (t.group o.d n)
    let s1 ← s.storeAll (w / 8) (ls.zip ((List.range act).map (elemAt x w)))
    .ok ((s1.take o).advance o))

/-- The accesses of VLDB and VSTB (R120): for each transferred block its code array and then its scale byte, so that where both fail the
code array's address is reported. DESIGN CHOICE: assumption 27. -/
def State.blockLocs (s : State) (want : Want) (a b : Word) (k : Nat) : Except Stop (List ((Word × Loc) × (Word × Loc))) := do
  let ls ← (List.range k).mapM fun j => do
    let va := a + BitVec.ofNat 64 (16 * j)
    let vb := b + BitVec.ofNat 64 j
    let la ← s.access want va
    let lb ← s.access want vb
    .ok ((va, la), (vb, lb))
  ls.forM fun l => do
    s.notHaltered l.1.2
    s.notHaltered l.2.2
  .ok ls

/-- VLDB (R120). DEDUCED: assumption 26. -/
def execVldb (o : Ops) (s : State) : Host.Outcome State Fault Refusal :=
  s.run (.vldb o) (do
    let t := s.task
    let a ← s.srcA o
    let b ← s.srcB o
    groupFits o.d (t.span o)
    need (a.toNat % 16 == 0) (Stop.alignment a)
    let ls ← s.blockLocs { r := true } a b (t.active o 4 / 32)
    let t1 := ((List.range ls.length).zip ls).foldl (fun t p =>
      t.wrV (o.d.toNat + p.1) { bits := BitVec.ofNat 128 (s.loaded p.2.1.2 16), tag := o.x.tag,
                                scale := BitVec.ofNat 8 (s.loaded p.2.2.2 1) })
      ((s.noteErrors 16 (ls.map (·.1))).noteErrors 1 (ls.map (·.2))).task
    let s1 := s.acquire o
    .ok (s1.doneTask o t1 0))

/-- VSTB (R120). DEDUCED: assumption 26. -/
def execVstb (o : Ops) (s : State) : Host.Outcome State Fault Refusal :=
  s.run (.vstb o) (do
    let t := s.task
    let a ← s.srcA o
    let b ← s.srcB o
    t.tagsAre 3 o.d (t.span o) o.x.tag true o.x.tag
    groupFits o.d (t.span o)
    need (a.toNat % 16 == 0) (Stop.alignment a)
    let ls ← s.blockLocs { w := true } a b (t.active o 4 / 32)
    let s1 ← s.storeEach (((List.range ls.length).zip ls).flatMap fun p =>
      let r := t.rdV (o.d.toNat + p.1)
      [{ va := p.2.1.1, loc := p.2.1.2, n := 16, v := r.bits.toNat }, { va := p.2.2.1, loc := p.2.2.2, n := 1, v := r.scale.toNat }])
    .ok ((s1.take o).advance o))

end Sys2Proof.Machine
end

