-- ==== Sys2Proof/Machine/Tile.lean ====
section
/-! DEFINITION. Tiles and the weight buffer (R207 to R222): the window, the waits of R209, tile loads and stores with their
halters, the register-file tile instructions, and WLD. -/

namespace Sys2Proof.Machine

open Sys2Proof

/-- A window entry that an instruction names; an unmapped one is an illegal operand. -/
def State.ptile (s : State) (j : Nat) : Except Stop Nat :=
  match s.task.window j with | some p => .ok p | none => .error Stop.illegalOperand

/-- Columns of a tile of a format (R207). -/
def tileCols (f : Fmt) : Nat := 512 / fmtBits f
/-- Row i's bits, its scale byte b, and its element j. -/
def Tile.row (x : Tile) (i : Nat) : Nat := (x.rows.extractLsb' (512 * i) 512).toNat
def Tile.scale (x : Tile) (i b : Nat) : BitVec 8 := x.scales.extractLsb' (32 * i + 8 * b) 8
def Tile.elem (x : Tile) (i j : Nat) : Nat := elemAt (x.row i) (fmtBits x.tag) j
def Tile.num (x : Tile) (i j : Nat) : FNum := numOf x.tag (x.scale i (j / 32)) (x.elem i j)

/-- A tile of the given tag, rows and scales, with its has-special bits (R207, R46). -/
def Tile.make (tag : Fmt) (rows : BitVec 16384) (scales : BitVec 1024) : Tile :=
  let x : Tile := { rows := rows, scales := if tag.isBlock then scales else 0, tag := tag }
  let sp (i : Nat) : Bool := (Fmt.isFp tag || tag.isBlock) &&
    (List.range (tileCols tag)).any fun j => isSpecial tag (x.scale i (j / 32)) (x.elem i j)
  { x with special := BitVec.ofNat 32 (packElems 1 ((List.range 32).map fun i => if sp i then 1 else 0)) }

/-! ### Waits -/

/-- Must a task instruction wait for a tile (R209)? -/
def State.tileBusy (s : State) (c p : Nat) (writes : Bool) : Bool :=
  (s.tileAt c p).loading || (s.cluster c).live.any fun j => j.writes.contains p || (writes && j.reads.contains p)
/-- Wait by R209. DEDUCED: assumption 33. -/
def State.tileWait (s : State) (p : Nat) (writes : Bool) : Except Stop Unit :=
  need (!s.tileBusy s.task.cluster p writes) (.wait .retry)

/-! ### TLD and TST (R211 to R216) -/

/-- The stop of a failed row access, with the row and whether its scale bytes failed (R212, R238). A frame in transit refuses the
access, which starts again after the flip and holds no request at the home (R168, R346). -/
def Stop.atRow (row : Nat) (scale : Bool) : Stop → Stop
  | .trap t => .trap { t with info1 := BitVec.ofNat 64 (row + if scale then 256 else 0) }
  | .wait (.transit k _ c) => .wait (.transit k false c)
  | e => e
def atRow {α : Type} (row : Nat) (scale : Bool) : Except Stop α → Except Stop α
  | .error e => .error (e.atRow row scale)
  | r => r

/-- A location of a tile access: its physical address and leaf. -/
def tilePhys (va : Word) : Loc → Except Stop (Nat × Word)
  | .scratch _ => .error (Stop.permission va)
  | .phys pa e => .ok (pa, e)

/-- The checks of one row (R212 step 5): alignment, R92 for the row and its scales, then the tile-lock permit and the counter
page. DESIGN CHOICE: assumption 34. -/
def State.tileRow (s : State) (n : Want) (block : Bool) (va vs : Word) (i : Nat) :
    Except Stop ((Nat × Word) × (Nat × Word)) := do
  atRow i false (need (va.toNat % 64 == 0) (Stop.alignment va))
  atRow i true (need (!block || vs.toNat % 4 == 0) (Stop.alignment vs))
  let permit (va : Word) (e : Word) : Except Stop Unit := need (pteTlk e && !pteCtr e) (Stop.permission va)
  let l ← atRow i false (s.access { n with home := true, ctr := .allow } va)
  let p ← atRow i false (tilePhys va l)
  if block then
    let l2 ← atRow i true (s.access { n with home := true, ctr := .allow } vs)
    let p2 ← atRow i true (tilePhys vs l2)
    atRow i false (permit va p.2)
    atRow i true (permit vs p2.2)
    .ok (p, p2)
  else
    atRow i false (permit va p.2)
    .ok (p, (0, 0))

/-- Where the halter of a line is held, by the mode of its page and the scope (R213). -/
def halterLevel (leaf : Word) (sc : Scope) : HalterLevel := if pteMode leaf = 2 then .channel else if sc = .p then .l3 else .slice
/-- Insert a line in rising order, once. -/
def insertLine (x : Nat × HalterLevel) : List (Nat × HalterLevel) → List (Nat × HalterLevel)
  | [] => [x]
  | y :: l => if x.1 < y.1 then x :: y :: l else if x.1 = y.1 then y :: l else y :: insertLine x l

/-- The checks of R212 and the access they leave (R213): rows from `a` at pitch `p`, scales from `c`.
DEDUCED: assumption 33. DESIGN CHOICE: assumption 34. -/
def State.planTile (s : State) (o : Ops) (store : Bool) : Except Stop TileAccess := do
  let pt ← s.ptile o.d.toNat
  let a ← s.srcA o
  let p ← s.srcB o
  let c ← s.srcC o
  need (o.x.sc != .x) Stop.illegalOperand
  need (64 ≤ p.toNat && p.toNat < 2 ^ 32) Stop.illegalOperand
  if store then s.tileWait pt false else .ok ()
  let x := s.tileAt s.task.cluster pt
  need (!(store && o.x.tag != .raw && o.x.tag != x.tag)) (Stop.format 3 o.x.tag x.tag 0)
  let tag := if store then x.tag else o.x.tag
  need (tag.isBlock || (o.x.c == 0 && !o.x.pc)) Stop.illegalOperand
  let h := 32 - o.x.mod.toNat
  let vas := (List.range h).map fun i => (a + BitVec.ofNat 64 i * p, c + BitVec.ofNat 64 i * (p / 16))
  let ps ← ((List.range h).zip vas).mapM fun r => s.tileRow { r := !store, w := store } tag.isBlock r.2.1 r.2.2 r.1
  if store then .ok () else s.tileWait pt true
  let at_ := ps.map (·.1) ++ if tag.isBlock then ps.map (·.2) else []
  .ok { pt := pt, lines := at_.foldl (fun l r => insertLine (lineOf r.1, halterLevel r.2 o.x.sc) l) [], held := 0,
        rows := (vas.map (·.1)).zip (ps.map (·.1.1)), scs := if tag.isBlock then (vas.map (·.2)).zip (ps.map (·.2.1)) else [],
        store := store, copy := x, tag := tag, o := o }

/-- The loaded tile (R215); bytes with an uncorrectable error have no defined value (R240). -/
def State.loadedTile (s : State) (a : TileAccess) : Tile :=
  Tile.make a.tag (BitVec.ofNat 16384 (packElems 512 (a.rows.map fun r => s.loaded (.phys r.2 0) 64)))
    (BitVec.ofNat 1024 (packElems 32 (a.scs.map fun r => s.loaded (.phys r.2 0) 4)))

/-- The commit of a tile access of the executing task (R214 to R216): every byte at one instant; the instruction completes. -/
def State.commitTile (s : State) (a : TileAccess) : Except Stop State := do
  let s1 ←
    if a.store then do
      -- at scope .c the copy unit sees no more of a tile than its words (R166, R167)
      let s0 := s.keepOld (a.o.x.sc != .c) (a.rows.map (fun r => (.phys r.2 0, 64)) ++ a.scs.map fun r => (.phys r.2 0, 4))
      let s1 ← ((List.range a.rows.length).zip a.rows).foldlM (fun s r => s.storeBytes r.2.1 (.phys r.2.2 0) 64 (a.copy.row r.1)) s0
      ((List.range a.scs.length).zip a.scs).foldlM (fun s r =>
        s.storeBytes r.2.1 (.phys r.2.2 0) 4 (a.copy.scales.extractLsb' (32 * r.1) 32).toNat) s1
    else
      let s1 := s.setTile s.task.cluster a.pt (s.loadedTile a)
      .ok ((s1.noteErrors 4 (a.scs.map fun r => (r.1, .phys r.2 0))).noteErrors 64 (a.rows.map fun r => (r.1, .phys r.2 0)))
  let s2 := ((s1.dropHalters s1.task.tid).acquire a.o).take a.o
  .ok ((s2.setTask { s2.task with tile := none, cstate := .running }).advance a.o)

/-- Roll a tile access back (R214): its halters drop, the tile is no longer loading, and the instruction starts again. -/
def State.rollbackTile (s : State) : State :=
  match s.task.tile with
  | none => s
  | some _ =>
    let s1 := s.letGo s.task
    s1.setTask { s1.task with tile := none }

/-- What the halters of an access do to the copies of its lines (R213). -/
def State.halterLines (s : State) (a : TileAccess) : State :=
  a.lines.foldl (fun s l => s.halterCopies a.store l.2 s.task.die l.1) s
/-- A tile access begins to wait: for a halter, or with every halter for a mark (R213, R328). -/
def State.startTile (s : State) (a : TileAccess) (w : Wait) : State :=
  let s1 := if a.store then s else s.setTile s.task.cluster a.pt { s.tileAt s.task.cluster a.pt with loading := true }
  s1.setTask { s1.task with cstate := .waiting, wait := w, tile := some a }

/-- A tile access (R213, R214): it commits at once where every halter is free, else it takes them one at a time; so does a code store
that cannot mark a line yet, which keeps what it has read of the tile (R216, R328). -/
def State.tileAccess (s : State) (i : Instr) (o : Ops) (store : Bool) : Host.Outcome State Fault Refusal :=
  match s.planTile o store with
  | .error e => s.run i (.error e)
  | .ok a =>
    if a.lines.any (fun l => s.haltered s.task.tid l.1) then .next (s.startTile a .halter)
    else match (s.halterLines a).commitTile a with
    | .ok s1 => s.run i (.ok s1)
    | .error (.wait w) => .next (s.startTile a w)
    | .error e => s.run i (.error e)

/-- TLD (R211 to R215). -/
def execTld (o : Ops) (s : State) : Host.Outcome State Fault Refusal := s.tileAccess (.tld o) o false
/-- TST (R211 to R214, R216). -/
def execTst (o : Ops) (s : State) : Host.Outcome State Fault Refusal := s.tileAccess (.tst o) o true

/-- HALTER_ACQUIRE (R213, R214): the next line's halter; a line of a stack that is handing over refuses it and the access rolls
back (R168, R346). -/
def State.acquireHalter (s : State) : State :=
  match s.task.tile with
  | none => s
  | some a =>
    match a.lines[a.held]? with
    | none => s
    | some l =>
      if (s.stack (stackOf (64 * l.1))).inTransit then s.rollbackTile
      else if s.haltered s.task.tid l.1 then s
      else
        let s1 := s.halterCopies a.store l.2 s.task.die l.1
        let h : Halter := { line := l.1, tid := s.task.tid, level := l.2, die := s.task.die }
        { s1 with halters := s1.halters ++ [h] }.setTask { s.task with tile := some { a with held := a.held + 1 } }
def execHalterAcquire (tid : BitVec 48) (s : State) : Host.Outcome State Fault Refusal := .next (s.asTask tid State.acquireHalter)

/-- TILE_ACCESS_COMMIT (R214): an access that holds every halter commits; a code store that cannot mark a line keeps its halters and
waits for the mark (R328). -/
def State.tryCommit (s : State) : State :=
  match s.task.tile with
  | none => s
  | some a =>
    if a.held = a.lines.length then
      match s.commitTile a with
      | .ok s1 => s1
      | .error (.wait w) => s.setTask { s.task with wait := w }
      | .error _ => s
    else s
def execTileAccessCommit (tid : BitVec 48) (s : State) : Host.Outcome State Fault Refusal := .next (s.asTask tid State.tryCommit)

/-- TILE_ACCESS_ROLLBACK (R214). -/
def execTileAccessRollback (tid : BitVec 48) (s : State) : Host.Outcome State Fault Refusal := .next (s.asTask tid State.rollbackTile)

/-! ### Register-file tile instructions (R217 to R219) -/

/-- TZERO (R217). -/
def execTzero (o : Ops) (s : State) : Host.Outcome State Fault Refusal :=
  s.run (.tzero o) (do
    let p ← s.ptile o.d.toNat
    s.tileWait p true
    .ok ((s.setTile s.task.cluster p { tag := o.x.tag }).advance o))

/-- A row of equal elements. -/
def fillRow (w n x : Nat) : Nat := packElems w (List.replicate n x)

/-- TFILL (R217). -/
def execTfill (o : Ops) (s : State) : Host.Outcome State Fault Refusal :=
  s.run (.tfill o) (do
    let p ← s.ptile o.d.toNat
    let x ← s.srcA o
    s.tileWait p true
    let f := o.x.tag
    let w := fmtBits f
    let e := x.toNat % 2 ^ w
    let sc := if f.isBlock then x.extractLsb' 8 8 else 0
    let t : Tile := { rows := BitVec.ofNat 16384 (fillRow w (16384 / w) e), scales := BitVec.ofNat 1024 (fillRow 8 128 sc.toNat),
                      tag := f, special := if isSpecial f sc e then BitVec.allOnes 32 else 0 }
    .ok (((s.setTile s.task.cluster p t).take o).advance o))

/-- One converted row of TCVT (R218): its bits, its scales, its flags, and the draws left. DEDUCED: assumption 32. -/
def tcvtRow (o : Ops) (src dst : Tile) (i : Nat) (ds : List (BitVec 16)) : Nat × Nat × BitVec 6 × List (BitVec 16) :=
  let es := tileCols src.tag
  let ed := tileCols o.x.tag
  let w := fmtBits o.x.tag
  let part := (o.x.mod.extractLsb' 2 3).toNat
  -- the source column of a destination column
  let from_ (j : Nat) : Option Nat :=
    if ed ≤ es then some (part * ed + j) else if part * es ≤ j ∧ j < part * es + es then some (j - part * es) else none
  if o.x.tag.isBlock then
    let r := (List.range 4).foldl (fun (acc : List Nat × List Nat × BitVec 6 × List (BitVec 16)) b =>
      let js := (List.range 32).map (32 * b + ·)
      if part ≠ 0 ∧ js.all (fun j => (from_ j).isNone) then
        (acc.1 ++ js.map (dst.elem i), acc.2.1 ++ [(dst.scale i b).toNat], acc.2.2.1, acc.2.2.2)
      else
        let vs := js.map fun j => match from_ j with
          | some k => src.num i k
          | none => if part = 0 then .fin false 0 0 else dst.num i j
        let q := toBlock o.x.tag o.x.c.toNat o.x.rm (acc.2.2.2.take 32) vs
        (acc.1 ++ q.2.1, acc.2.1 ++ [q.1.toNat], acc.2.2.1 ||| q.2.2, acc.2.2.2.drop 32)) ([], [], 0, ds)
    (packElems 4 r.1, packElems 8 r.2.1, r.2.2.1, r.2.2.2)
  else
    let r := (List.range ed).foldl (fun (acc : List Nat × BitVec 6 × List (BitVec 16)) j =>
      match from_ j with
      | some k =>
        let q := convert src.tag o.x.tag (satOf o) o.x.rm (acc.2.2.headD 0) (src.scale i (k / 32)) (src.elem i k)
        (acc.1 ++ [q.1], acc.2.1 ||| q.2, acc.2.2.drop 1)
      | none => if part = 0 then (acc.1 ++ [0], acc.2.1, acc.2.2.drop 1) else (acc.1 ++ [dst.elem i j], acc.2.1, acc.2.2)) ([], 0, ds)
    (packElems w r.1, 0, r.2.1, r.2.2)

/-- Draws that each row of TCVT takes: one for every destination column that is written, the kept columns of a rebuilt block
included (R218, R37). DEDUCED: assumption 32. -/
def tcvtDraws (o : Ops) (src : Fmt) : Nat :=
  let es := tileCols src
  let ed := tileCols o.x.tag
  if ed ≤ es ∨ o.x.mod.extractLsb' 2 3 = 0 then ed else if o.x.tag.isBlock then (es + 31) / 32 * 32 else es

/-- TCVT (R218). DEDUCED: assumption 32. -/
def execTcvt (o : Ops) (s : State) : Host.Outcome State Fault Refusal :=
  s.run (.tcvt o) (do
    let pd ← s.ptile o.d.toNat
    let ps ← s.ptile o.a.toNat
    s.tileWait ps false
    s.tileWait pd true
    let c := s.task.cluster
    let src := s.tileAt c ps
    let dst := s.tileAt c pd
    need (src.tag != .raw && src.tag != .e2m1) (Stop.format 0 .raw src.tag 0)
    let es := tileCols src.tag
    let ed := tileCols o.x.tag
    let part := (o.x.mod.extractLsb' 2 3).toNat
    need (part < (if ed ≤ es then es / ed else ed / es)) Stop.illegalOperand
    need (!(es < ed && part != 0 && dst.tag != o.x.tag)) (Stop.format 3 o.x.tag dst.tag 0)
    let n := 32 * tcvtDraws o src.tag
    let ds := s.task.drawsFor o n
    let r := (List.range 32).foldl (fun (acc : List Nat × List Nat × BitVec 6 × List (BitVec 16)) i =>
      let q := tcvtRow o src dst i acc.2.2.2
      (acc.1 ++ [q.1], acc.2.1 ++ [q.2.1], acc.2.2.1 ||| q.2.2.1, q.2.2.2)) ([], [], 0, ds.1)
    let x := Tile.make o.x.tag (BitVec.ofNat 16384 (packElems 512 r.1)) (BitVec.ofNat 1024 (packElems 32 r.2.1))
    let s1 := s.setTile c pd x
    .ok (s1.doneTask o { s1.task with seed := ds.2 } r.2.2.1))

/-- TMOV (R219). -/
def execTmov (o : Ops) (s : State) : Host.Outcome State Fault Refusal :=
  s.run (.tmov o) (do
    let pd ← s.ptile o.d.toNat
    let ps ← s.ptile o.a.toNat
    s.tileWait ps false
    s.tileWait pd true
    let c := s.task.cluster
    .ok ((s.setTile c pd (s.tileAt c ps)).advance o))

/-! ### The weight buffer (R221, R222) -/

/-- Class of a matrix operand (R44): FP16 and BF16, the 8-bit floats, the blocks, 8-bit integers, 4-bit integers; 0 is none. -/
def opClass : Fmt → Nat
  | .fp16 | .bf16 => 1 | .e4m3 | .e5m2 => 2 | .mxfp4 | .ob4 => 3 | .i8 | .n8 => 4 | .i4 | .n4 => 5 | _ => 0

def Cluster.unit (c : Cluster) (u : Nat) : WUnit := smapGet {} c.wbuf u
/-- TAG and NZ of a header (R221). -/
def headTag (h : BitVec 256) : Fmt := (Fmt.ofCode (h.extractLsb' 64 5).toNat).getD .raw
def headNz (h : BitVec 256) : Word := h.extractLsb' 0 64
/-- Number of set bits below `n`. -/
def popBelow (x : Word) (n : Nat) : Nat := ((List.range n).filter fun i => x.getLsbD i).length
/-- Units of a panel (R221). -/
def panelSize (h : BitVec 256) : Nat := 1 + (if (headTag h).isBlock then 4 else 0) + popBelow (headNz h) 64

/-- Buffer units that a live job reserves (R225). -/
def Cluster.unitReserved (c : Cluster) (lo hi : Nat) : Bool :=
  c.live.any fun j => j.bsrc && (List.range j.kc).any fun k => (List.range j.nt).any fun n =>
    let u := j.panel k n
    decide (u < hi) && decide (lo < u + panelSize (c.unit u).bytes)

/-- Has-special bit of sector s of a panel (R222): `bits` are its 32 bytes, `scale b` the scale byte b of its row. -/
def sectorSpecial (tag : Fmt) (scale : Nat → BitVec 8) (s : Nat) (bits : Nat) : Bool :=
  let w := fmtBits tag
  let n := 256 / w
  (List.range n).any fun e => isSpecial tag (scale ((s % 2 * n + e) / 32)) (elemAt bits w e)

/-- WLD (R222). DESIGN CHOICE: assumption 34. -/
def execWld (o : Ops) (s : State) : Host.Outcome State Fault Refusal :=
  s.run (.wld o) (do
    let a ← s.srcA o
    let b ← s.srcB o
    let head : BitVec 256 := BitVec.ofNat 256 (← s.load {} b 32 32)
    let tag := headTag head
    need (opClass tag != 0) Stop.illegalOperand
    let size := panelSize head
    let ls ← s.locs { r := true } b 32 size
    need (a.toNat + size ≤ 32768) Stop.illegalOperand
    let c := s.cluster s.task.cluster
    need (!c.unitReserved a.toNat (a.toNat + size)) (.wait .retry)
    let units := ls.map fun l => s.loaded l.2 32
    let first := if tag.isBlock then 5 else 1
    let scales := if tag.isBlock then packElems 256 ((units.drop 1).take 4) else 0
    let nz := headNz head
    let stored (k : Nat) : Nat := units.getD (first + popBelow nz k) 0
    let special (k : Nat) : Bool :=
      sectorSpecial tag (fun x => BitVec.ofNat 8 (elemAt scales 8 (4 * (k / 2) + x))) k (if nz.getLsbD k then stored k else 0)
    let headMask : Word := BitVec.ofNat 64 (packElems 1 ((List.range 64).map fun k => if !nz.getLsbD k && special k then 1 else 0))
    let secMasks := ((List.range 64).filter fun k => nz.getLsbD k).map fun k => if special k then (1 : Word) else 0
    let masks := headMask :: (List.replicate (first - 1) 0 ++ secMasks)
    let buf := ((List.range size).zip (units.zip masks)).foldl (fun m u =>
      smapSet {} m (a.toNat + u.1) { bytes := BitVec.ofNat 256 u.2.1, mask := u.2.2 }) c.wbuf
    (((s.setCluster s.task.cluster { c with wbuf := buf }).noteErrors 32 ls).acquire o).complete o (BitVec.ofNat 64 size))

end Sys2Proof.Machine
end

