-- ==== Sys2Proof/Machine/Matrix.lean ====
section
/-! DEFINITION. The matrix engine (R44, R45, R223 to R231): k-steps, the job queue with its priorities, jobs from any core, and
the instructions MMA, MJOB, JPOLL and JWAIT. -/

namespace Sys2Proof.Machine

open Sys2Proof

/-! ### Pairs and control words (R44, R223, R224) -/

/-- Group size of a pair of operand tags (R44); none where the pair is refused. -/
def groupSize (a b : Fmt) : Option Nat :=
  let x := opClass a
  let y := opClass b
  if x = 0 ∨ y = 0 then none
  else if x ≤ 3 then
    if 4 ≤ y then none else if x = 1 ∨ y = 1 then some 16 else if x = 2 ∨ y = 2 then some 32 else some 64
  else if y ≤ 3 then none else if x = 5 ∧ y = 5 then some 64 else some 32
/-- Accumulator format of R44. -/
def accOf (a : Fmt) : Fmt := if opClass a ≤ 3 then .fp32 else .i32

def ctlPart (c : Word) : Nat := (c.extractLsb' 8 3).toNat
def ctlAcc0 (c : Word) : Bool := c.getLsbD 4
def ctlPri (c : Word) : BitVec 2 := c.extractLsb' 14 2
/-- Does a control word set a reserved bit (R223)? -/
def ctlReserved (c : Word) : Bool := (c &&& ~~~(0xC713 : Word)) != 0
/-- Step 5 of R224 for a pair of tags with group size g. -/
def ctlFits (c : Word) (a b : Fmt) (g : Nat) : Bool :=
  let parts := if fmtBits a = fmtBits b then 1 else 512 / min (fmtBits a) (fmtBits b) / (2 * g)
  !ctlReserved c && decide (ctlPart c < parts) && !(c.getLsbD 0 && decide (opClass a ≤ 3)) &&
    !(c.getLsbD 1 && decide (opClass b ≤ 3))

/-! ### One block product (R45, R223, R224) -/

/-- A panel of the weight buffer as a tile (R221). -/
def Cluster.panelTile (c : Cluster) (u : Nat) : Tile :=
  let h := (c.unit u).bytes
  let nz := headNz h
  let tag := headTag h
  let first := u + if tag.isBlock then 5 else 1
  let sector (k : Nat) : Nat := if nz.getLsbD k then (c.unit (first + popBelow nz k)).bytes.toNat else 0
  { rows := BitVec.ofNat 16384 (packElems 256 ((List.range 64).map sector))
    scales := if tag.isBlock then BitVec.ofNat 1024 (packElems 256 ((List.range 4).map fun k => (c.unit (u + 1 + k)).bytes.toNat))
              else 0
    tag := tag }

/-- The K elements from a column of a row, as numbers, and as integers with the signedness of the control word (R44). -/
def Tile.nums (x : Tile) (i col k : Nat) : List FNum := (List.range k).map fun j => x.num i (col + j)
def Tile.ints (x : Tile) (unsigned : Bool) (i col k : Nat) : List Int :=
  (List.range k).map fun j =>
    let w := fmtBits x.tag
    let e := x.elem i (col + j)
    if !unsigned && 2 ^ (w - 1) ≤ e then (e : Int) - 2 ^ w else (e : Int)

/-- The has-special bit that covers the elements of a row and column of a panel (R222, R224): that of the sector which holds them, in the
mask of its unit, or of the header for a sector that is not stored. -/
def Cluster.panelCover (c : Cluster) (u n col : Nat) : Bool :=
  let h := c.unit u
  let tag := headTag h.bytes
  let k := 2 * n + col * fmtBits tag / 256
  if (headNz h.bytes).getLsbD k then (c.unit (u + (if tag.isBlock then 5 else 1) + popBelow (headNz h.bytes) k)).mask.getLsbD 0
  else h.mask.getLsbD k

/-- Is group q of row n of B skipped (R46)? Every B element in it is a zero code, and the bit that covers them and those of the A rows
are clear. -/
def skipGroup (a b : Tile) (cover : Nat → Nat → Bool) (g cb n q : Nat) : Bool :=
  a.special == 0 && !cover n (cb + q * g) && (List.range g).all fun j => b.elem n (cb + q * g + j) == 0

/-- Groups 0 and 1 of one output element; `skip` says which are skipped. -/
def twoGroups {α : Type} (step : Nat → List (α × α) → Nat × BitVec 6) (g acc : Nat) (skip : Bool × Bool) (ps : List (α × α)) : Nat × BitVec 6 :=
  let r := if skip.1 then (acc, 0) else step acc (ps.take g)
  let q := if skip.2 then (r.1, 0) else step r.1 (ps.drop g)
  (q.1, r.2 ||| q.2)

/-- The 32 × 32 block: for each row m its 32 elements, and the flags of all. Each row of B comes with the groups of it that are
skipped. -/
def blockProduct {α : Type} (step : Nat → List (α × α) → Nat × BitVec 6) (g : Nat) (as : List (List α)) (bs : List (List α × Bool × Bool))
    (old : Nat → Nat → Nat) : List (List Nat) × BitVec 6 :=
  let rows := as.mapIdx fun m a => bs.mapIdx fun n b => twoGroups step g (old m n) b.2 (a.zip b.1)
  (rows.map fun r => r.map (·.1), (rows.flatten.map (·.2)).foldl (· ||| ·) 0)

/-- R224's computation: the tile pair D from A, B with the bits that cover it, and the control word, with the flags. -/
def mmaCompute (a b d0 d1 : Tile) (cover : Nat → Nat → Bool) (ctl : Word) (acc0 : Bool) (g : Nat) : Tile × Tile × BitVec 6 :=
  let k := 2 * g
  let ca := if fmtBits a.tag < fmtBits b.tag then ctlPart ctl * k else 0
  let cb := if fmtBits b.tag < fmtBits a.tag then ctlPart ctl * k else 0
  let old (m n : Nat) : Nat := if acc0 then 0 else elemAt ((if n < 16 then d0 else d1).row m) 32 (n % 16)
  let idx := List.range 32
  let skip (n : Nat) : Bool × Bool := (skipGroup a b cover g cb n 0, skipGroup a b cover g cb n 1)
  let r :=
    if opClass a.tag ≤ 3 then
      blockProduct groupStep g (idx.map fun m => a.nums m ca k) (idx.map fun n => (b.nums n cb k, skip n)) old
    else
      blockProduct groupStepInt g (idx.map fun m => a.ints (ctl.getLsbD 0) m ca k)
        (idx.map fun n => (b.ints (ctl.getLsbD 1) n cb k, skip n)) old
  let half (f : List Nat → List Nat) : Tile :=
    Tile.make (accOf a.tag) (BitVec.ofNat 16384 (packElems 512 (r.1.map fun row => packElems 32 (f row)))) 0
  (half (List.take 16), half (List.drop 16), r.2)

/-! ### The queue (R225, R226) -/

/-- EPRI of a waiting job at a clk (R226): it rises by one every 4,096 clks of waiting, to 3 at most. -/
def Job.aged (clk : Nat) (j : Job) : Job :=
  if j.state = .queued ∨ j.state = .overtaken then
    let n := (clk - j.since) / 4096
    { j with epri := BitVec.ofNat 2 (min 3 (j.epri.toNat + n)), since := j.since + 4096 * n }
  else j

/-- The entries that no job holds. -/
def Cluster.freeEntries (c : Cluster) : List Nat := (List.range 32).filter fun e => !(c.job e).live

/-- Take an entry for a job (R225, R228): GEN rises and passes over 0. DEDUCED: assumption 21. -/
def Cluster.takeEntry (c : Cluster) (clk e : Nat) (j : Job) : Cluster :=
  let g := (c.job e).gen + 1
  { c.setJob e { j with gen := if g = 0 then 1 else g, taken := true, state := .queued, epri := ctlPri j.ctl, order := c.accepted,
                        since := clk, kdone := 0, flg := 0, code := 0 } with accepted := c.accepted + 1 }

/-- Do two lists of tiles meet? -/
def tilesMeet (a b : List Nat) : Bool := a.any b.contains
/-- Must MMA `h` wait for the earlier MMA `x` of its task (R209, R226)? DEDUCED: assumption 35. -/
def Job.after (h x : Job) : Bool :=
  h.mma && x.mma && h.tid == x.tid && decide (x.order < h.order) &&
    (tilesMeet x.writes (h.reads ++ h.writes) || tilesMeet x.reads h.writes)

/-- Entries whose jobs wait to be chosen. -/
def Cluster.waiting (c : Cluster) : List Nat :=
  (List.range 32).filter fun e =>
    let j := c.job e
    j.taken && (j.state == .queued || j.state == .overtaken) && !c.live.any j.after
/-- The waiting job of highest EPRI, earliest accepted first (R226). DEDUCED: assumption 35. -/
def Cluster.best (c : Cluster) : Option Nat :=
  c.waiting.foldl (fun r e =>
    match r with
    | none => some e
    | some b =>
      let x := c.job e
      let y := c.job b
      if y.epri < x.epri ∨ (y.epri = x.epri ∧ x.order < y.order) then some e else some b) none
/-- The entry whose k-steps the engine performs. -/
def Cluster.running (c : Cluster) : Option Nat :=
  (List.range 32).find? fun e => let j := c.job e; j.taken && j.state == .running && decide (j.kdone < j.kc)

/-- The choice of R226: an idle engine runs the best job; a running job is overtaken only by EPRI 3 over less.
DEDUCED: assumption 35. -/
def Cluster.choose (c0 : Cluster) (clk : Nat) : Cluster :=
  let c := { c0 with jobs := smapMap {} c0.jobs fun _ j => j.aged clk }
  match c.best with
  | none => c
  | some h =>
    match c.running with
    | none => c.setJob h { c.job h with state := .running }
    | some r =>
      if (c.job h).epri = 3 ∧ (c.job r).epri ≠ 3 then
        (c.setJob r { c.job r with state := .overtaken, since := clk }).setJob h { c.job h with state := .running }
      else c

/-- An engine whose completion add is still to be made does nothing else (R227, R307). -/
def Cluster.adding (c : Cluster) : Bool :=
  c.live.any fun j => j.state == .running && j.kdone == j.kc && !j.mma && (j.record.extractLsb' 192 64 : Word) != 0

/-- KSTEP_COMPLETE (R226): the engine is at a k-step boundary or idle. -/
def execKstepComplete (cluster : Nat) (s : State) : Host.Outcome State Fault Refusal :=
  .next (if s.clocked cluster ∧ (s.cluster cluster).adding = false then s.setCluster cluster ((s.cluster cluster).choose s.clk) else s)

/-- JOB_PRIORITY_AGEING (R226). -/
def execJobPriorityAgeing (cluster : Nat) (entry : BitVec 5) (s : State) : Host.Outcome State Fault Refusal :=
  let c := s.cluster cluster
  .next (if s.clocked cluster then s.setCluster cluster (c.setJob entry.toNat ((c.job entry.toNat).aged s.clk)) else s)

/-! ### k-steps (R227) -/

/-- Operand B of a k-step: a tile or a panel. -/
def Cluster.operandB (c : Cluster) (j : Job) (k n : Nat) : Tile :=
  if j.bsrc then c.panelTile (j.panel k n) else smapGet {} c.tiles (j.tileB k n)
def Cluster.tile (c : Cluster) (p : Nat) : Tile := smapGet {} c.tiles p
/-- The has-special bits that cover operand B of a k-step (R46, R224). -/
def Cluster.coverB (c : Cluster) (j : Job) (k n : Nat) : Nat → Nat → Bool :=
  if j.bsrc then c.panelCover (j.panel k n) else fun row _ => (c.tile (j.tileB k n)).special.getLsbD row

/-- Does a panel end below unit 32,768 (R224 step 3, R227)? -/
def Cluster.panelFits (c : Cluster) (u : Nat) : Bool := decide (u < 32768) && decide (u + panelSize (c.unit u).bytes ≤ 32768)

/-- Step 4 of R224 on tags: the position, the expected tag and the tag found. DEDUCED: assumption 33. -/
def tagsRefused (a b : Fmt) (ds : List Fmt) (acc0 : Bool) : Option (Nat × Fmt × Fmt) :=
  if opClass a = 0 then some (0, .raw, a)
  else match groupSize a b with
  | none => some (1, .raw, b)
  | some _ => if acc0 then none else (ds.find? (· != accOf a)).map fun d => (3, accOf a, d)

/-- The pairs (i, n) of a k-step. -/
def Job.blocks (j : Job) : List (Nat × Nat) := (List.range j.mt).flatMap fun i => (List.range j.nt).map fun n => (i, n)
/-- ACC0 applies only when k = 0 (R227). -/
def Job.acc0 (j : Job) : Bool := ctlAcc0 j.ctl && j.kdone == 0

/-- The checks at the start of a k-step (R227): the code of the fault, 0 for none. -/
def Cluster.kstepCode (c : Cluster) (j : Job) : BitVec 8 :=
  let k := j.kdone
  if j.bsrc && (List.range j.nt).any (fun n => !c.panelFits (j.panel k n)) then 5
  else if j.blocks.any (fun b =>
      (tagsRefused (c.tile (j.tileA b.1 k)).tag (c.operandB j k b.2).tag
        [(c.tile (j.tileD b.1 b.2).1).tag, (c.tile (j.tileD b.1 b.2).2).tag] j.acc0).isSome) then 1
  else if j.blocks.any (fun b =>
      let a := (c.tile (j.tileA b.1 k)).tag
      let t := (c.operandB j k b.2).tag
      !ctlFits j.ctl a t ((groupSize a t).getD 16)) then 7
  else 0

/-- An engine writes a tile; a TLD that has it loading still has (R209). -/
def Cluster.putTile (c : Cluster) (p : Nat) (x : Tile) : Cluster :=
  { c with tiles := smapSet {} c.tiles p { x with loading := (c.tile p).loading } }
/-- One block of a k-step: D(i, n) takes R224's result. -/
def Cluster.kstepBlock (j : Job) (r : Cluster × BitVec 6) (b : Nat × Nat) : Cluster × BitVec 6 :=
  let c := r.1
  let a := c.tile (j.tileA b.1 j.kdone)
  let t := c.operandB j j.kdone b.2
  let d := j.tileD b.1 b.2
  let x := mmaCompute a t (c.tile d.1) (c.tile d.2) (c.coverB j j.kdone b.2) j.ctl j.acc0 ((groupSize a.tag t.tag).getD 16)
  ((c.putTile d.1 x.1).putTile d.2 x.2.1, r.2 ||| x.2.2)

/-- JOB_KSTEP (R227): the engine takes the choice of the boundary it stands at, then performs one k-step of the job it runs,
or faults it. -/
def Cluster.kstep (c0 : Cluster) (clk : Nat) : Cluster :=
  let c := if c0.adding then c0 else c0.choose clk
  match if c0.adding then none else c.running with
  | none => c
  | some e =>
    let j := c.job e
    let code := c.kstepCode j
    if code ≠ 0 then c.setJob e { j with state := .faulted, code := code }
    else
      let r := j.blocks.foldl (Cluster.kstepBlock j) (c, 0)
      r.1.setJob e { j with kdone := j.kdone + 1, flg := j.flg ||| r.2 }
def execJobKstep (cluster : Nat) (s : State) : Host.Outcome State Fault Refusal :=
  .next (if s.clocked cluster then s.setCluster cluster ((s.cluster cluster).kstep s.clk) else s)

/-- Who makes the completion add of a job: its engine's cluster, in the kicker's address space (R227, R324).
DEDUCED: assumption 36. -/
def Job.who (j : Job) (cluster : Nat) : Who :=
  { core := 8 * cluster, aspace := j.aspace, sup := j.sup, tenant := j.tenant, granted := j.grant }
/-- DEDUCED: assumption 36. -/
def Job.cmpl (j : Job) : Word := j.record.extractLsb' 192 64

/-- JOB_COMPLETION (R227): after the last k-step the add of 1 to CMPL; a fault of it is code 6, and it waits for a frame in
transit, a link, or room for its record. The flags of an MMA go to the task's JSR (R224), once the task has a context on a core again. DEDUCED: assumption 36. -/
def State.completeJob (s : State) (cluster e : Nat) : State :=
  let c := s.cluster cluster
  let j := c.job e
  let stop (s : State) (st : JobState) (code : BitVec 8) : State :=
    let c := s.cluster cluster
    let s1 := s.setCluster cluster (c.setJob e { j with state := st, code := code, grant := none })
    if j.mma && st == .done then s1.modTask j.tid fun t => { t with jsr := t.jsr ||| j.flg.setWidth 64 } else s1
  if j.taken = true ∧ j.state = .running ∧ j.kdone = j.kc then
    if j.mma then (if s.tasks.any (fun t => t.tid == j.tid && t.saved.isSome && t.cstate != .dumped) then s else stop s .done 0)
    else if j.cmpl = 0 then stop s .done 0
    else match s.counterPa (j.who cluster) j.cmpl with
    | .ok pa => if s.addStalls pa j.tenant 1 then s else stop (s.agentAdd pa j.cmpl j.tid j.tenant 1) .done 0
    | .error b =>
      if b.waits then s.setCluster cluster (c.setJob e { j with grant := (j.who cluster).keep s.clk b }) else stop s .faulted 6
  else s
def execJobCompletion (cluster : Nat) (entry : BitVec 5) (s : State) : Host.Outcome State Fault Refusal :=
  .next (if s.clocked cluster then s.completeJob cluster entry.toNat else s)

/-! ### MMA (R223, R224) -/

/-- A tile's tag as the task's earlier MMAs will leave it (R209). DEDUCED: assumption 33. -/
def Cluster.tagAfter (c : Cluster) (tid : Tid) (p : Nat) : Fmt :=
  let js := c.live.filter fun j => j.mma && j.tid == tid && j.writes.contains p
  (js.foldl (fun (r : Nat × Fmt) j => if r.1 ≤ j.order then (j.order, j.acc) else r) (0, (c.tile p).tag)).2

/-- The record of an MMA as a job with MT = NT = KC = 1. -/
def mmaRecord (ctl : Word) (a b d : Nat) (wbuf : Bool) (unit : Nat) : BitVec 512 :=
  BitVec.ofNat 512 (ctl.toNat + a * 2 ^ 64 + (if wbuf then 2 ^ 111 + unit * 2 ^ 128 else b * 2 ^ 72) + d * 2 ^ 80)

/-- MMA with B a tile or a panel (R224). DESIGN CHOICE: assumption 19. -/
def State.mma (s : State) (i : Instr) (o : Ops) (wbuf : Bool) : Host.Outcome State Fault Refusal :=
  s.run i (do
    need (!o.d.getLsbD 0) Stop.illegalOperand
    let d0 ← s.ptile o.d.toNat
    let d1 ← s.ptile (o.d.toNat + 1)
    let pa ← s.ptile o.a.toNat
    let pb ← if wbuf then .ok none else (do let p ← s.ptile o.b.toNat; .ok (some p))
    let unit ← if wbuf then s.srcB o else .ok 0
    let ctl ← s.srcC o
    let ts := pa :: pb.toList
    need (!tilesMeet [d0, d1] ts) Stop.illegalOperand
    let k := s.task.cluster
    let c := s.cluster k
    let u := unit.toNat
    need (!wbuf || (c.panelFits u && opClass (headTag (c.unit u).bytes) != 0)) Stop.illegalOperand
    need (!([d0, d1] ++ ts).any fun p => (c.tile p).loading) (.wait .retry)
    let tid := s.task.tid
    let ta := c.tagAfter tid pa
    let tb := match pb with | some p => c.tagAfter tid p | none => headTag (c.unit u).bytes
    match tagsRefused ta tb [c.tagAfter tid d0, c.tagAfter tid d1] (ctlAcc0 ctl) with
    | some (pos, want, found) => .error (Stop.format pos want found 0)
    | none =>
      need (ctlFits ctl ta tb ((groupSize ta tb).getD 16)) Stop.illegalOperand
      match s.choose c.freeEntries with
      | none => .error (.wait .retry)
      | some e =>
        let j : Job := { record := mmaRecord ctl pa (pb.getD 0) d0 wbuf u, mma := true, tid := tid, tenant := s.task.tenant,
                         aspace := s.task.aspace, core := s.task.core, sup := s.task.sup, d1 := BitVec.ofNat 6 d1, acc := accOf ta }
        .ok (((s.setCluster k (c.takeEntry s.clk e j)).take o).advance o))

/-- MMA (R223, R224). -/
def execMma (o : Ops) (s : State) : Host.Outcome State Fault Refusal := s.mma (.mma o) o false
/-- MMA.wbuf (R223, R224). -/
def execMmaWbuf (o : Ops) (s : State) : Host.Outcome State Fault Refusal := s.mma (.mmaWbuf o) o true

/-! ### Jobs from any core (R227 to R230) -/

/-- The refusal code of a record on acceptance (R227), 0 for none: 7, 2, 3, 5. -/
def Cluster.refuse (c : Cluster) (j : Job) : BitVec 8 :=
  if j.record.getLsbD 80 || 3 < j.field 256 3 || j.cmpl.toNat % 8 != 0 || (j.bsrc && j.field 144 16 == 0) || ctlReserved j.ctl then 7
  else if (j.reads ++ j.writes).any (fun p => 63 < p) then 2
  else if tilesMeet j.writes j.reads then 3
  else if j.bsrc && (List.range j.kc).any (fun k => (List.range j.nt).any fun n => !c.panelFits (j.panel k n)) then 5
  else 0

/-- The refusal code of a remote job's paddock and capability (R229), 0 for none. -/
def State.refuseRemote (s : State) (cluster : Nat) (record : BitVec 512) (tenant : BitVec 12) : BitVec 8 :=
  let cap : Word := record.extractLsb' 320 64
  match s.paddock tenant with
  | none => 8
  | some p =>
    if p.hasCluster cluster = false then 8
    else if cap.extractLsb' 60 4 == 0 && cap.extractLsb' 48 12 == tenant &&
        (s.cluster cluster).capt.any (fun e => e.getLsbD 63 && e.extractLsb' 48 12 == tenant && e.extractLsb' 0 48 == cap.extractLsb' 0 48)
      then 0
    else 4

/-- Handles of R228. -/
def jobHandle (gen : BitVec 16) (cluster e : Nat) : Word := gen ++ 0#5 ++ BitVec.ofNat 11 cluster ++ 0#27 ++ BitVec.ofNat 5 e
def refusedHandle (cluster : Nat) (code : BitVec 8) : Word := 0#16 ++ 0#5 ++ BitVec.ofNat 11 cluster ++ 0#16 ++ code ++ 0#8

/-- What an engine answers to a job. -/
inductive Accept where
  | refused (code : BitVec 8)
  | full
  | taken (e : Nat) (s : State)

/-- An engine accepts or refuses a job of a task (R225, R227, R229); one whose clocks stand takes none, and the job waits as for a full
queue. DESIGN CHOICE: assumption 19. DESIGN CHOICE: assumption 63. -/
def State.accept (s : State) (cluster : Nat) (remote : Bool) (record : BitVec 512) (t : Task) : Accept :=
  let c := s.cluster cluster
  let j : Job := { record := record, tid := t.tid, tenant := t.tenant, aspace := t.aspace, core := t.core, sup := t.sup }
  let far := if remote then s.refuseRemote cluster record t.tenant else 0
  let code := if far ≠ 0 then far else c.refuse j
  if code ≠ 0 then .refused code
  else if s.clocked cluster = false then .full
  else match s.choose c.freeEntries with
  | none => .full
  | some e => .taken e (s.setCluster cluster (c.takeEntry s.clk e j))

/-- May a message of the executing task go to the engine of a cluster of its paddock now (R360)? One for another cluster is refused where it
is sent (R229). -/
def State.engineWay (s : State) (k : Nat) : Bool :=
  !(match s.paddock s.task.tenant with | some p => p.hasCluster k | none => false) || s.route s.task.tenant s.task.die (k / 288)

/-- MJOB (R228). DESIGN CHOICE: assumption 34. -/
def execMjob (o : Ops) (s : State) : Host.Outcome State Fault Refusal :=
  s.run (.mjob o) (do
    let a ← s.srcA o
    let b ← s.srcB o
    need (b == BitVec.allOnes 64 || decide (b.toNat ≤ 1151)) Stop.illegalOperand
    let own := s.task.cluster
    let k := if b = BitVec.allOnes 64 then own else b.toNat
    let r ← s.load {} a 64 64
    need (s.engineWay k) (.wait .retry)
    match s.accept k (k != own) (BitVec.ofNat 512 r) s.task with
    | .refused code => s.complete o (refusedHandle k code)
    | .full => .error (.wait .retry)
    | .taken e s1 => s1.complete o (jobHandle ((s1.cluster k).job e).gen k e))

/-- JOB_ACCEPT (R227): a local job reaches its engine; with no entry free it waits. -/
def State.acceptFrom (s : State) (cluster : Nat) (remote : Bool) (record : BitVec 512) (t : Task) : State :=
  match s.accept cluster remote record t with
  | .taken _ s1 => s1
  | _ => s
def execJobAccept (cluster : Nat) (record : BitVec 512) (tid : BitVec 48) (s : State) : Host.Outcome State Fault Refusal :=
  .next (match s.findTask tid with | some t => s.acceptFrom cluster false record t | none => s)

/-- REMOTE_JOB_ARRIVAL (R229): the message carries the tenant identifier. -/
def execRemoteJobArrival (cluster : Nat) (record : BitVec 512) (tid : BitVec 48) (tenant : BitVec 12) (s : State) :
    Host.Outcome State Fault Refusal :=
  .next (match s.findTask tid with
    | some t => if t.tenant = tenant then s.acceptFrom cluster true record t else s
    | none => s)

/-- State code of R225. -/
def JobState.code : JobState → BitVec 4
  | .queued => 0 | .running => 1 | .overtaken => 2 | .held => 3 | .done => 4 | .faulted => 5 | .refused => 6 | .unknown => 7

/-- The status of a handle (R230) and whether JWAIT completes with it. -/
def State.jobStatus (s : State) (h : Word) : Word × Bool :=
  let gen := h.extractLsb' 48 16
  let k := (h.extractLsb' 32 11).toNat
  let code := h.extractLsb' 8 8
  let unknown : Word × Bool := (7, true)
  if gen = 0 then
    if (h &&& ~~~(0x000007FF0000FF00 : Word)) = 0 ∧ k ≤ 1151 ∧ (code = 2 ∨ code = 3 ∨ code = 4 ∨ code = 5 ∨ code = 7 ∨ code = 8) then
      ((code ++ 0x06#8 : BitVec 16).setWidth 64, true)
    else unknown
  else if (h &&& ~~~(0xFFFF07FF0000001F : Word)) ≠ 0 ∨ 1151 < k then unknown
  else
    let j0 := (s.cluster k).job (h.extractLsb' 0 5).toNat
    let j := if s.clocked k then j0.aged s.clk else j0
    if j.taken = false ∨ j.gen ≠ gen then unknown
    else
      (0#23 ++ BitVec.ofNat 9 j.kdone ++ 0#2 ++ j.epri ++ 0#6 ++ j.flg ++ j.code ++ 0#4 ++ j.state.code,
        j.state == .done || j.state == .faulted)

/-- The query of a handle waits for a way to the engine's die (R230, R360); a handle that names no engine sends none. -/
def State.queryWay (s : State) (h : Word) : Except Stop Unit :=
  let k := (h.extractLsb' 32 11).toNat
  need (h.extractLsb' 48 16 == 0 || decide (1151 < k) || s.engineWay k) (.wait .retry)

/-- JPOLL (R230). -/
def execJpoll (o : Ops) (s : State) : Host.Outcome State Fault Refusal :=
  s.run (.jpoll o) (do
    let h ← s.srcA o
    s.queryWay h
    s.complete o (s.jobStatus h).1)
/-- JWAIT (R230). -/
def execJwait (o : Ops) (s : State) : Host.Outcome State Fault Refusal :=
  s.run (.jwait o) (do
    let h ← s.srcA o
    s.queryWay h
    need (s.jobStatus h).2 (.wait .retry)
    (s.acquire o).complete o (s.jobStatus h).1)

/-- JOB_QUERY (R230): an engine answers; a JWAIT that stalls goes on where the status is final. -/
def execJobQuery (tid : BitVec 48) (handle : Word) (s : State) : Host.Outcome State Fault Refusal :=
  .next (if (s.jobStatus handle).2 then
      s.modTask tid fun t => if t.cstate = .waiting ∧ t.wait = .retry then { t with cstate := .running } else t
    else s)

/-! ### Held and cancelled jobs (R231) -/

/-- Is a task halted with its context not yet restored (R242, R243)? -/
def Task.halted (t : Task) : Bool := t.cstate == .preempted || t.cstate == .migrating

/-- JOB_HOLD (R231). -/
def execJobHold (cluster : Nat) (entry : BitVec 5) (s : State) : Host.Outcome State Fault Refusal :=
  let c := s.cluster cluster
  .next (match s.tasks.find? (fun t => t.halted && t.cluster == cluster && (c.job entry.toNat).touches t) with
    | some t => s.setCluster cluster (c.hold entry.toNat t.tid)
    | none => s)

/-- A held job goes on as overtaken, or is cancelled. -/
def Job.settle (keep : Bool) (clk : Nat) (j : Job) : Job :=
  if keep then { j with state := .overtaken, since := clk, holder := none } else { j with state := .faulted, code := 9, holder := none }
/-- What becomes of the jobs held for a task (R231). -/
def State.settleHeld (s : State) (tid : Tid) (keep : Bool) : State :=
  { s with clusters := smapMap {} s.clusters fun _ c =>
      { c with jobs := smapMap {} c.jobs fun _ j =>
          if j.state == .held && j.holder == some tid then j.settle keep s.clk else j } }
/-- JOB_CANCEL (R231): the job's context has been restored on another cluster, or discarded. -/
def execJobCancel (cluster : Nat) (entry : BitVec 5) (s : State) : Host.Outcome State Fault Refusal :=
  let c := s.cluster cluster
  let j := c.job entry.toNat
  let gone : Bool := match j.holder with
    | none => false
    | some tid => match s.findTask tid with
      | none => true
      | some t => t.cstate == .free || (!t.halted && t.cluster != cluster)
  .next (if j.state == .held && gone then s.setCluster cluster (c.setJob entry.toNat (j.settle false s.clk)) else s)

end Sys2Proof.Machine
end

