-- ==== Sys2Proof/Machine/Coherence.lean ====
section
/-! DEFINITION. Lines and their directories (R139, R140, R142 to R147, R150 to R155): where a core keeps a line, the requests to the
home L2 directory of a die, and those of a die's L2 to the home L3. They move copies of lines; the bytes of memory are those of the
coherence order (DESIGN CHOICE, assumption 5). -/

namespace Sys2Proof.Machine

open Sys2Proof

/-- Can the messages of a line pass between a die and its home: over an arc of the paddock that holds its stack (R361, R366)?
DEDUCED: assumption 46. -/
def State.joined (s : State) (die line : Nat) : Bool :=
  match (s.stack (stackOf (64 * line))).tenant with
  | some t => s.way t die (64 * line)
  | none => (s.arc [0, 1, 2, 3] die (s.homeDie (64 * line))).isSome
/-- Is a request for a line served now? It waits while the line's stack is handing over (R154), while a halter holds the line (R168), and
while no arc joins the dies (R360). DEDUCED: assumption 62. -/
def State.served (s : State) (die line : Nat) : Bool :=
  !(s.stack (stackOf (64 * line))).inTransit && !(s.halters.any fun h => h.line == line) && s.joined die line

/-- The die of a TLB's place. -/
def placeDie (place : Nat) : Nat := if 10000 ≤ place then (place - 10000) / 288 else place / 2304
/-- Is a leaf's page held in caches: a DIR or a SINV page that holds no counters (R139, R145, R302)? -/
def cachedPage (e : Word) : Bool := pteMode e != 2 && !pteCtr e
/-- Does a die hold lines of a page on which a line lies: by a translation cached there, one of a page that is held in caches?
DEDUCED: assumption 62. -/
def State.dieCaches (s : State) (die line : Nat) : Bool :=
  s.tlb.any fun e => placeDie e.place == die && cachedPage e.leaf && e.maps (64 * line)

def execL3Read (line : Nat) (x : BitVec 2) (s : State) : Host.Outcome State Fault Refusal :=
  .next (if s.served x.toNat line ∧ s.dieCaches x.toNat line = true then s.l3Read line x.toNat else s)
def execL3Ownership (line : Nat) (x : BitVec 2) (s : State) : Host.Outcome State Fault Refusal :=
  .next (if s.served x.toNat line ∧ s.dieCaches x.toNat line = true then s.l3Own line x.toNat else s)
def execL3WriteBack (line : Nat) (x : BitVec 2) (s : State) : Host.Outcome State Fault Refusal :=
  .next (if s.joined x.toNat line then s.l3Back line x.toNat else s)
/-- BACK_INVALIDATION (R153): it waits while a die that holds the line cannot be reached (R360). -/
def execBackInvalidation (line : Nat) (s : State) : Host.Outcome State Fault Refusal :=
  .next (if (List.range 4).all fun y => s.l3State line y == .I || s.joined y line then s.backInvalidate line else s)

/-- SINV_WRITE_THROUGH (R146): before it acknowledges, the home L2 slice obtains die ownership. -/
def execSinvWriteThrough (die : BitVec 2) (line : Nat) (s : State) : Host.Outcome State Fault Refusal :=
  .next (if s.served die.toNat line ∧ s.dieCaches die.toNat line = true then s.ownThrough die.toNat line else s)

/-! ### Where a core keeps a line (R136, R139, R140, R142, R143) -/

/-- The translation through which a task in a slot of a core reaches a line, where one is cached. DEDUCED: assumption 62. -/
def State.mapping (s : State) (core line : Nat) : Option TlbEntry :=
  s.tlb.find? fun e => (e.place == core || e.place == 10000 + core / 8) && e.maps (64 * line) &&
    s.tasks.any fun t => t.inSlot && t.core == core && t.aspace.extractLsb' 52 12 == e.asid
/-- The virtual address of a line that a cached translation maps. -/
def TlbEntry.vaOf (e : TlbEntry) (line : Nat) : Nat := e.va + 64 * line % 2 ^ e.bits

/-- Cache segments that core k lends (R143). DEDUCED: assumption 52. -/
def State.lends (s : State) (core : Nat) : Nat :=
  let v := (s.cluster (core / 8)).vpool
  if v.getLsbD (8 + core % 8) then (v.extractLsb' 0 4).toNat else 0

/-- Indices of the ways of a line's set in the L1 cache of a core (R139): two ways of 128 sets to the segment.
DESIGN CHOICE: assumption 5. -/
def State.ways (s : State) (core line : Nat) : List Nat :=
  let c := s.core core
  let first := c.scr + c.stashSegs
  (List.range (16 - first - s.lends core)).flatMap fun i => [256 * (first + i) + line % 128, 256 * (first + i) + 128 + line % 128]

/-- Lines that the victim pool of a cluster holds, with the core that placed each, and how many it has room for (R143). -/
def State.poolLines (s : State) (cluster : Nat) : List (Nat × Nat) :=
  (List.range 8).flatMap fun i => ((s.core (8 * cluster + i)).lines.filter fun x => x.2.place == .pool).map fun x => (8 * cluster + i, x.1)
def State.poolRoom (s : State) (cluster : Nat) : Nat := ((List.range 8).map fun i => 256 * s.lends (8 * cluster + i)).sum

/-- A line leaves a core's L1 for want of room: to the pool where the core takes part and the line is of a DIR page, which may replace
a pool line; else it is given up, a clean sharer silently (R143, R150). Which pool line goes is a free value.
DESIGN CHOICE: assumption 5. -/
def State.evict (s : State) (core line : Nat) : State :=
  let x := s.line core line
  let pool := s.poolLines (core / 8)
  if x.sinv ∨ s.lends core = 0 then s.giveUp core line
  else
    let s1 := if pool.length < s.poolRoom (core / 8) then s else
      match pool[Config.freeChoice s.free % pool.length]? with | some y => s.giveUp y.1 y.2 | none => s
    s1.setLine core line { x with place := .pool }

/-- A core keeps a line that has come to it: where it is, in its stash at the place `st` that an entry gives, or in a way of its L1, which
another line may have to leave (to the pool, once a line that comes from there has made room). A
core without cache keeps nothing (R139). Which way is taken is a free value. DESIGN CHOICE: assumption 5. -/
def State.keep (s : State) (core line : Nat) (st : Option (Nat × Nat)) (x : Line) : State :=
  let old := s.line core line
  if old.present ∧ old.place ≠ .pool then s.setLine core line { x with place := old.place, index := old.index, entry := old.entry }
  else match st with
  | some e => s.setLine core line { x with place := .stash, index := BitVec.ofNat 12 e.2, entry := BitVec.ofNat 3 e.1 }
  | none =>
    let s := s.setLine core line {}
    let ways := s.ways core line
    let used := (s.core core).lines.filter fun y => y.2.place == .l1
    match ways.find? fun i => !(used.any fun y => y.2.index.toNat == i) with
    | some i => s.setLine core line { x with index := BitVec.ofNat 12 i }
    | none =>
      match s.choose ways with
      | none => s.setLine core line {}
      | some i =>
        let s1 := match used.find? (fun y => y.2.index.toNat == i) with | some y => s.evict core y.1 | none => s
        s1.setLine core line { x with index := BitVec.ofNat 12 i }

/-! ### The home L2 directory (R150, R151) -/

/-- The bit of a core in a coarse vector. -/
def coarse (q : Nat) : BitVec 72 := 1#72 <<< (q / 32)

/-- A core of a die keeps a DIR line, shared or exclusive. -/
def State.fill (s : State) (die q line : Nat) (st : Option (Nat × Nat)) (excl dirty : Bool) : State :=
  s.keep (2304 * die + q) line st { present := true, excl := excl, dirty := dirty }

/-- A read of a SINV line (R147): filled with the stamp of the generation and named by no directory; SINV lines bypass the stash. -/
def State.sinvRead (s : State) (die line q : Nat) : State :=
  let s1 := s.l3Read line die
  s1.keep (2304 * die + q) line none { present := true, sinv := true, stamp := (s1.core (2304 * die + q)).sgen }

/-- DIR_GETS of a core that caches the line (R150): a line that the core itself placed in the pool goes back to it (R143), and a stash line
comes shared (R142). DESIGN CHOICE: assumption 52. DEDUCED: assumption 62. -/
def State.dirRead (s : State) (die line q : Nat) (st : Option (Nat × Nat)) : State :=
  let k : BitVec 12 := BitVec.ofNat 12 q
  let x := s.line (2304 * die + q) line
  if x.present ∧ x.place = .pool then s.keep (2304 * die + q) line st { x with place := .l1 }
  else match s.dirEntry die line with
  | .inv =>
    if st.isSome then ((s.l3Read line die).setDir die line (.shp [k])).fill die q line st false false
    else ((s.dieOwns die line).setDir die line (.own k)).fill die q line st true false
  | .shp l =>
    let e : DirEntry := if l.contains k then .shp l else if l.length < 4 then .shp (l ++ [k])
      else .shc (l.foldl (fun v x => v ||| coarse x.toNat) (coarse q))
    ((s.l3Read line die).setDir die line e).fill die q line st false false
  | .shc v => ((s.l3Read line die).setDir die line (.shc (v ||| coarse q))).fill die q line st false false
  | .own o =>
    if o = k then s
    else ((s.share (2304 * die + o.toNat) line).setDir die line (.shp [o, k])).fill die q line st false false

/-- Invalidate every core an entry names but the requester. -/
def State.invalidateAll (s : State) (die line q : Nat) : State :=
  (s.dirEntry die line).named.foldl (fun s k => if k = q then s else s.invalidate (2304 * die + k) line) s
/-- The other copies go and q owns the line, which it changes. -/
def State.grantOwn (s : State) (die line q : Nat) (st : Option (Nat × Nat)) : State :=
  (((s.invalidateAll die line q).dieOwns die line).setDir die line (.own (BitVec.ofNat 12 q))).fill die q line st true true
/-- DIR_GETX of a core that caches the line (R150). DEDUCED: assumption 62. -/
def State.dirWrite (s : State) (die line q : Nat) (st : Option (Nat × Nat)) : State :=
  if s.dirEntry die line = .own (BitVec.ofNat 12 q) then
    if (s.line (2304 * die + q) line).present then s.fill die q line st true true else s
  else s.grantOwn die line q st
/-- DIR_UPG (R151): granted without data only where the entry is SHP and holds q's pointer; else served as a GetX. Either way
the other copies go and q owns the line. DEDUCED: assumption 62. -/
def State.dirUpgrade (s : State) (die line q : Nat) (st : Option (Nat × Nat)) : State :=
  match s.dirEntry die line with
  | .shp l => if l.contains (BitVec.ofNat 12 q) then s.grantOwn die line q st else s.dirWrite die line q st
  | _ => s.dirWrite die line q st
/-- A write of a core that caches nothing (R139): the home slice performs it. -/
def State.sliceWrite (s : State) (die line : Nat) : State :=
  (((s.invalidateAll die line 2304).dieOwns die line).setDir die line .inv).setL2Dirty die line true

/-- A core holds the line in its stash by an entry of another address space: the access does not hit it there, and the line leaves the
stash (R140). DEDUCED: assumption 62. -/
def State.leaveStash (s : State) (core line : Nat) (st : Option (Nat × Nat)) : State :=
  let x := s.line core line
  if x.present ∧ x.place = .stash ∧ st ≠ some (x.entry.toNat, x.index.toNat) then s.giveUp core line else s
/-- What an access of a core to a line does to the copies (R139, R142, R146, R147, R150): `e` is the leaf of its page, `st` the place that a
stash entry gives the line, and `write` says that it is a store or an atomic. Nothing of a UNC or counter page is held. Requests go to
the home only while they are served, and a core whose clocks stand makes none (R21). DEDUCED: assumption 62. -/
def State.useLine (s0 : State) (core line : Nat) (e : Word) (st : Option (Nat × Nat)) (write : Bool) : State :=
  let die := core / 2304
  let q := core % 2304
  if cachedPage e = false ∨ s0.served die line = false ∨ s0.clocked (core / 8) = false then s0
  else if pteMode e = 1 then
    let x := s0.line core line
    if write ∨ (x.present = true ∧ x.stamp = (s0.core core).sgen) then s0 else s0.sinvRead die line q
  else
    let s := s0.leaveStash core line st
    let x := s.line core line
    let room := st.isSome || !(s.ways core line).isEmpty
    if room = false then (if write then s.sliceWrite die line else s.l3Read line die)
    else if write then (if x.present && !x.excl then s.dirUpgrade die line q st else s.dirWrite die line q st)
    else if x.present ∧ x.place ≠ .pool then s else s.dirRead die line q st

/-- A request of core q of a die for a line, through a translation cached there. -/
def State.request (s : State) (die line q : Nat) (write : Bool) : State :=
  let core := 2304 * die + q
  if 2304 ≤ q then s
  else match s.mapping core line with
  | none => s
  | some e => s.useLine core line e.leaf ((s.core core).stashPlace e.asid (e.vaOf line)) write
def execDirGets (die : BitVec 2) (line q : Nat) (s : State) : Host.Outcome State Fault Refusal := .next (s.request die.toNat line q false)
/-- A request for ownership, which the home port of the line places when it is served (R373, R374): nothing where the port holds it. -/
def State.ownRequest (s : State) (die line q : Nat) : State :=
  let core := 2304 * die + q
  match s.mapping core line, s.paddocks.find? (·.hasCore core) with
  | some e, some p =>
    if cachedPage e.leaf = false ∨ s.served die line = false ∨ s.clocked (core / 8) = false then s
    else match s.placeAt p core (64 * line) e.leaf with | some s1 => s1.request die line q true | none => s
  | _, _ => s.request die line q true
/-- A request for ownership (R103, R150): nothing of a SINV page is owned by a core. -/
def execDirGetx (die : BitVec 2) (line q : Nat) (s : State) : Host.Outcome State Fault Refusal := .next (s.ownRequest die.toNat line q)
/-- DIR_UPG: of a core that holds the line shared. -/
def execDirUpg (die : BitVec 2) (line q : Nat) (s : State) : Host.Outcome State Fault Refusal :=
  .next (if (s.line (2304 * die.toNat + q) line).present then s.ownRequest die.toNat line q else s)

/-- DIR_PUTX (R150): the owner's data go to the L2. -/
def execDirPutx (die : BitVec 2) (line q : Nat) (s : State) : Host.Outcome State Fault Refusal :=
  .next (if q < 2304 ∧ s.dirEntry die.toNat line = .own (BitVec.ofNat 12 q) then
      (s.giveUp (2304 * die.toNat + q) line).setDir die.toNat line .inv
    else s)

end Sys2Proof.Machine
end

