-- ==== Sys2Proof/Machine/Power.lean ====
section
/-! DEFINITION. Power islands (R21, R155, R385): Hold with its sleep proxies, wake, Off, issue gating and the base islands'
rate. -/

namespace Sys2Proof.Machine

open Sys2Proof

/-- Do the island's cores hold no task in any slot, and are their ready queues empty (R21)? -/
def State.islandEmpty (s : State) (i : Nat) : Bool :=
  !(s.tasks.any fun t => t.inSlot && islandOf t.core == i) && s.cores.all fun c => islandOf c.1 != i || c.2.ready.isEmpty

/-- Before Hold a core writes a dirty line back and gives up its ownership; the home directory keeps naming the core. A pool line
is dropped (R155). -/
def State.retainLine (s : State) (core : Nat) (x : Nat × Line) : State :=
  if x.2.place = .pool then s.giveUp core x.1 else s.disown core x.1
/-- A core is prepared for Hold, and its sleep proxy starts with an empty log (R155). -/
def State.retain (s : State) (core : Nat) : State :=
  let s1 := (s.core core).lines.foldl (fun s x => s.retainLine core x) s
  s1.setCore core { s1.core core with sleepLog := [], sleepCount := 0 }

/-- On wake a core drops the logged lines, or all of them past 64 invalidations, and its SINV lines; SGEN is 0 (R155). -/
def Core.wake (c : Core) : Core :=
  { c with lines := c.lines.filter fun e =>
             !(e.2.place != .pool && (decide (64 < c.sleepCount) || c.sleepLog.contains e.2.index)) && !e.2.sinv
           sgen := 0, sleepLog := [], sleepCount := 0 }

/-- ISLAND_HOLD (R21, R155): only an island that holds no task. DEDUCED: assumption 63. -/
def execIslandHold (island : BitVec 7) (s : State) : Host.Outcome State Fault Refusal :=
  let i := island.toNat
  .next (if i < 96 ∧ (s.island i).state = .run ∧ s.islandEmpty i = true then
      (s.cores.foldl (fun s c => if islandOf c.1 = i then s.retain c.1 else s) s).setIsland i { s.island i with state := .hold, stopped := s.clk }
    else s)

/-- SLEEP_PROXY_INVALIDATE (R155): an invalidation arrives at a held core. -/
def execSleepProxyInvalidate (core : Nat) (index : BitVec 12) (s : State) : Host.Outcome State Fault Refusal :=
  let c := s.core core
  .next (if (s.island (islandOf core)).state = .hold then
      s.setCore core (c.proxy (if c.lines.any (fun e => e.2.index == index && e.2.present && e.2.place != .pool) then some index else none))
    else s)

/-- The clocks of an island stood for a number of clks, in which no job of its engines has aged (R21, R226). -/
def State.standJobs (s : State) (i clks : Nat) : State :=
  { s with clusters := smapMap {} s.clusters fun k c =>
      if islandOf (8 * k) = i then { c with jobs := smapMap {} c.jobs fun _ j => if j.live then { j with since := j.since + clks } else j } else c }
/-- An island wakes (R155); one that was Off comes up without state (R21). DEDUCED: assumption 63. -/
def State.wakeIsland (s : State) (i : Nat) : State :=
  match (s.island i).state with
  | .run => s
  | _ => ((s.islandCores i Core.wake).standJobs i (s.clk - (s.island i).stopped)).setIsland i { s.island i with state := .run }
/-- ISLAND_WAKE (R155). -/
def execIslandWake (island : BitVec 7) (s : State) : Host.Outcome State Fault Refusal :=
  .next (if island.toNat < 96 then s.wakeIsland island.toNat else s)

/-- Does a paddock hold a core of the island (R385)? -/
def State.islandUsed (s : State) (i : Nat) : Bool :=
  s.paddocks.any fun p => (List.range 12).any fun x => p.hasCluster (288 * (i / 24) + 24 * (i % 24 / 2) + 12 * (i % 2) + x)

/-- Bytes of scratch of the cores outside an island. -/
def scratchOutside (i : Nat) (m : Memory) : Memory := m.filter fun e => islandOf (e.1 / 262144) != i

/-- ISLAND_OFF (R21, R385): no supply and no state, of its cores and of its clusters; only an island that holds no task and no core
of a paddock. DEDUCED: assumption 63. -/
def execIslandOff (island : BitVec 7) (s : State) : Host.Outcome State Fault Refusal :=
  let i := island.toNat
  .next (if i < 96 ∧ s.islandEmpty i = true ∧ s.islandUsed i = false then
      { s.islandCores i (fun _ => {}) with
          clusters := smapMap {} s.clusters fun k c => if islandOf (8 * k) = i then {} else c
          scratch := scratchOutside i s.scratch }.setIsland i { s.island i with state := .off }
    else s)

/-- ISSUE_GATING (R21): issue slots of a core are gated for a number of clks. DESIGN CHOICE: assumption 42. -/
def execIssueGating (core clks : Nat) (s : State) : Host.Outcome State Fault Refusal :=
  .next (s.setCore core { s.core core with gate := s.clk + clks })

/-- BASE_ISLAND_RATE_CHANGE (R21). -/
def execBaseIslandRateChange (island : BitVec 7) (half : Bool) (s : State) : Host.Outcome State Fault Refusal :=
  .next (if 96 ≤ island.toNat then s.setIsland island.toNat { s.island island.toNat with half := half } else s)

end Sys2Proof.Machine
end

