-- ==== Sys2Proof/Machine/Stream.lean ====
section
/-! DEFINITION. Streams (R176 to R206, R389): the stream unit and its stations, and the stream instructions. -/

namespace Sys2Proof.Machine

open Sys2Proof

/-- State code (R177). -/
def StreamState.code : StreamState → BitVec 4
  | .free => 0 | .defined => 1 | .running => 2 | .floated => 3 | .hopping => 4 | .sinking => 5 | .recalled => 6 | .ended => 7
  | .faulted => 8

/-- The status image (R189). -/
def Stream.image (r : Stream) : Word :=
  if r.state = .free then 0
  else BitVec.ofNat 40 r.didx ++ r.fcode ++ 0#2 ++ BitVec.ofBool r.hp ++ BitVec.ofBool r.hh ++ r.ev ++ 0#4 ++ r.state.code

/-- Is the saddlebag away from the core (R177)? -/
def Stream.away (r : Stream) : Bool := r.station.isSome

/-- Change stream `n` of a task. -/
def State.putStream (s : State) (tid : Tid) (n : BitVec 2) (r : Stream) : State := s.modTask tid fun t => t.setStream n r

/-! ### Descriptors (R179 to R181, R195) -/

/-- The fields of a descriptor. -/
def descOf (x : BitVec 1024) : Desc where
  base := x.extractLsb' 0 64
  stride0 := x.extractLsb' 64 32
  stride1 := x.extractLsb' 96 32
  stride2 := x.extractLsb' 128 32
  tstride := x.extractLsb' 160 32
  ext0 := x.extractLsb' 192 32
  ext1 := x.extractLsb' 224 32
  ext2 := x.extractLsb' 256 32
  ibound := x.extractLsb' 288 32
  fmt := (Fmt.ofCode (x.extractLsb' 320 5).toNat).getD .raw
  mode := x.extractLsb' 325 3
  op := x.extractLsb' 328 3
  sink := x.extractLsb' 331 2
  sport := x.extractLsb' 333 2
  evmask := x.extractLsb' 336 4
  ifmt := x.extractLsb' 340 2
  tbase := x.extractLsb' 384 64
  sinka := x.extractLsb' 448 64
  evctr := x.extractLsb' 512 64

/-- A tag of R181: integers, the three 16 and 32-bit floats. -/
def numTag (f : Fmt) : Bool := f.isInt || f == .fp32 || f == .fp16 || f == .bf16
/-- The pairs of R181, with the codes that R179 marks illegal left out. -/
def Desc.modeOk (d : Desc) : Bool :=
  let any := numTag d.fmt || d.fmt == .e4m3 || d.fmt == .e5m2
  let fold := 1 ≤ d.op.toNat && d.op.toNat ≤ 4
  if d.mode = 0 ∨ d.mode = 1 then
    (d.op == 0 && any) || (d.op == 5 && (d.fmt == .fp32 || d.fmt == .fp16 || d.fmt == .bf16))
  else if d.mode = 2 then fold && numTag d.fmt
  else if d.mode = 3 then (d.op == 0 && any) || (fold && numTag d.fmt)
  else false
/-- Is the content legal (R195), the counter page of EVCTR aside? -/
def Desc.legal (d : Desc) : Bool :=
  let ext (x : BitVec 32) : Bool := x != 0 && x.toNat ≤ 1048575
  let unit := if d.mode = 3 then d.indexSize else d.size
  d.modeOk && d.sink != 3 && d.ifmt != 3 && ext d.ext0 && ext d.ext1 && ext d.ext2 && d.count ≤ 2 ^ 40 - 1 &&
  d.base.toNat % unit == 0 && d.stride0.toNat % unit == 0 && d.stride1.toNat % unit == 0 && d.stride2.toNat % unit == 0 &&
  (d.mode != 3 || (d.ibound != 0 && d.tbase.toNat % d.size == 0 && d.tstride.toNat % d.size == 0 && d.tbase.toNat < 2 ^ 48)) &&
  d.base.toNat < 2 ^ 48 && d.sinka.toNat < 2 ^ 48 && d.evctr.toNat < 2 ^ 48 &&
  (d.sink != 2 || d.sinka.toNat % 8 == 0)

/-- Stream contexts in use on a core (R176). -/
def State.contexts (s : State) (core : Nat) : Nat :=
  (s.tasks.filter fun t => t.core == core && t.resident).foldl
    (fun n t => n + (t.streams.toList.filter fun r => r.state != .free).length) 0

/-! ### Folding (R182) and scaling (R183) -/

/-- Initial accumulator. -/
def Desc.accInit (d : Desc) : Word :=
  if d.op = 2 then (if Fmt.isFp d.fmt then 0x7F800000 else BitVec.ofInt 64 (hiOf d.fmt))
  else if d.op = 3 then (if Fmt.isFp d.fmt then 0xFF800000 else BitVec.ofInt 64 (loOf d.fmt))
  else 0

/-- Fold an element into the accumulator. -/
def Stream.fold (r : Stream) (e : Nat) : Stream :=
  let f := r.desc.fmt
  let op := r.desc.op
  let acc32 := r.acc.toNat % 2 ^ 32
  if op = 4 then
    if e % 2 ^ (if Fmt.isFp f then fmtBits f - 1 else fmtBits f) ≠ 0 then { r with acc := r.acc + 1 } else r
  else if Fmt.isFp f then
    let x := (ffmt f).decode e
    let q :=
      if op = 1 then (ffmt .fp32).result (addNum ((ffmt .fp32).decode acc32) x)
      else
        let y := if f = .fp32 then (e, 0) else (ffmt .fp32).ofNum .rne 0 x
        let m := (ffmt .fp32).minmax (op == 3) acc32 y.1
        (m.1, m.2 ||| y.2)
    { r with acc := BitVec.ofNat 64 q.1, flg := r.flg ||| q.2.setWidth 5 }
  else
    let x := extend f e
    let less (a b : Word) : Bool := if Fmt.signed f then a.slt b else a.ult b
    { r with acc :=
        if op = 1 then r.acc + x
        else if op = 2 then (if less x r.acc then x else r.acc)
        else (if less r.acc x then x else r.acc) }

/-- Scale-and-bias of an element (R183). -/
def Desc.scaleBias (d : Desc) (e : Nat) : Nat × BitVec 6 :=
  if d.op = 5 then
    (ffmt d.fmt).result (fmaNum ((ffmt d.fmt).decode e) ((ffmt .fp32).decode (d.tbase.toNat % 2 ^ 32))
      ((ffmt .fp32).decode (d.tbase.toNat / 2 ^ 32)))
  else (e, 0)

/-! ### Streams of a task -/

/-- What an agent does with stream n of a task that has a context. -/
def State.onStream (s : State) (tid : Tid) (n : BitVec 2) (f : Task → Stream → State) : State :=
  match s.findTask tid with | none => s | some t => f t (t.stream n)
/-- What the stream unit and the stations do with stream n of a task that has a context: nothing while an event add of the stream is
held (R307). DEDUCED: assumption 56. -/
def State.onFree (s : State) (tid : Tid) (n : BitVec 2) (f : Task → Stream → State) : State :=
  if s.eventHeld tid n then s else s.onStream tid n f
/-- Who fetches for a stream: the core, or the station that holds the saddlebag, through the walker pool of its die (R187, R324). -/
def Task.streamWho (t : Task) (r : Stream) : Who := { t.who with granted := r.grant, walker := r.station.map (·.1.toNat) }
/-- Who fetches an indexed stream's target: the core whose live channel holds it (R191, R324). -/
def State.targetWho (s : State) (t : Task) (r : Stream) (a : Int) : Who :=
  let w := t.streamWho r
  match vaOf a with
  | none => w
  | some va => match s.check w { r := true } va with
    | .ok (.phys pa _) => { w with walker := some (s.liveCore pa / 2304) }
    | _ => w

/-! ### Events of a stream (R188) -/

/-- Raise an event: its EV bit, and the add to EVCTR where EVMASK has the bit. -/
def State.streamEvent (s : State) (tid : Tid) (n : BitVec 2) (bit : BitVec 4) : State :=
  s.onStream tid n fun t r =>
    let s1 := s.putStream tid n { r with ev := r.ev ||| bit }
    if r.desc.evmask &&& bit ≠ 0 then s1.addFor (t.streamWho r) r.desc.evctr tid 1 (some n) else s1

/-! ### Fetching (R180, R187, R191, R192) -/

/-- Where the next read of a stream goes, and who makes it: the next element, or in indexed mode its index and then its target. -/
def State.nextLoc (s : State) (t : Task) (r : Stream) : Except (Option SFault) (Who × Word × Loc) :=
  let d := r.desc
  let w := t.streamWho r
  match if d.mode = 3 then r.index else none with
  | none => (s.fetchLoc w t.tid (d.element r.fidx)).map fun x => (w, x)
  | some x =>
    let a := d.target x.toNat
    if (scratchBase : Int) ≤ a ∧ a < 2 ^ 48 then .error (some { code := 2, info := BitVec.ofInt 64 a })
    else (s.fetchLoc (s.targetWho t r a) t.tid a).map fun x => (s.targetWho t r a, x)
/-- Bytes of the next read. -/
def Stream.nextSize (r : Stream) : Nat := if r.desc.mode = 3 ∧ r.index = none then r.desc.indexSize else r.desc.size
/-- What the next read of a stream returns; an index is checked against IBOUND (R191). -/
def State.nextRead (s : State) (t : Task) (r : Stream) : Except (Option SFault) Nat :=
  match s.nextLoc t r with
  | .error e => .error e
  | .ok x =>
    let v := s.loaded x.2.2 r.nextSize
    if r.desc.mode = 3 ∧ r.index = none ∧ r.desc.ibound.toNat ≤ v then .error (some { code := 4, info := BitVec.ofNat 64 v }) else .ok v
/-- What a read for a stream leaves beside its value: the code bit of an executable page (R327), and the data error that its task takes
(R240), with the PC of the last SGO. -/
def State.noteFor (s : State) (tid : Tid) (pc : Word) (w : Who) (x : Word × Loc × Nat) : State :=
  let s1 := s.noteX w x.1 x.2.1
  if s.locPoisoned x.2.1 x.2.2 then s1.modTask tid fun t => { t with dataErr := some (x.1, pc, x.2.1.pa) } else s1
/-- What the next read of a stream leaves beside its value. -/
def State.noteRead (s : State) (t : Task) (r : Stream) : State :=
  match s.nextLoc t r with
  | .error _ => s
  | .ok x => s.noteFor t.tid r.goPc x.1 (x.2.1, x.2.2, r.nextSize)
/-- What the home of a stack in transit holds of the next read of a stream, which has to wait (R187, R345). -/
def State.nextGrant (s : State) (t : Task) (r : Stream) : Option Grant :=
  let a := match if r.desc.mode = 3 then r.index else none with | some x => r.desc.target x.toNat | none => r.desc.element r.fidx
  let w := if r.desc.mode = 3 ∧ r.index.isSome = true then s.targetWho t r a else t.streamWho r
  match vaOf a with
  | none => none
  | some va => match s.check w { r := true } va with | .error b => w.keep s.clk b | .ok _ => w.granted

/-- Element FIDX has the value `v`: buffered, sent to the core, or folded; the last one ends the fetching (R178). -/
def Stream.deliver (r : Stream) (v : Nat) : Stream :=
  let j := r.fidx
  let last := decide (r.desc.count ≤ j + 1)
  let r := { r with fidx := j + 1, index := none, grant := none,
                    read := match r.index with | some x => if r.desc.reducing then r.read else r.read ++ [(j, x.toNat)] | none => r.read }
  if r.desc.reducing then
    let r := r.fold v
    let r := if r.away then r else { r with didx := j + 1 }
    if last then { r with state := .sinking, homing := r.away } else r
  else
    let e := (j, BitVec.ofNat 64 v)
    let r := if r.away then { r with sent := r.sent ++ [e] } else { r with buf := r.buf ++ [e] }
    if last && (r.state == .running || r.state == .floated) then
      { r with state := .ended, hh := false, station := none, recalling := false, homing := false }
    else r

/-- May the stream unit fetch at the core: a running stream, or one whose discarded elements are fetched again (R193)? Pending notes
are completed first (R169). -/
def Stream.fetchesHome (r : Stream) : Bool :=
  r.desc.mode != 1 && r.fidx < r.desc.count && !r.away && r.pend.isEmpty &&
  (r.state == .running || (!r.desc.reducing && (r.state == .ended || (r.state == .faulted && r.fidx < r.faultJ))))

/-- The saddlebag reaches home: the recall event, and the fold count reported (R188, R205, R206). Its pending notes come with it, for the
core to complete (R169, R190). `f` gives the state it comes home to. -/
def State.bringHome (s : State) (tid : Tid) (n : BitVec 2) (f : Stream → Stream) : State :=
  s.onStream tid n fun _ r =>
    (s.putStream tid n (f { r with station := none, recalling := false, homing := false, answers := [], grant := none,
                                   didx := if r.desc.reducing then r.fidx else r.didx })).streamEvent tid n 8

/-- CORE_ELEMENT_FETCH: one read at the core; in indexed mode the index only (R180, R191). -/
def State.coreFetch (s : State) (tid : Tid) (n : BitVec 2) : State :=
  s.onFree tid n fun t r =>
    if t.streaming && r.fetchesHome && (r.desc.mode != 3 || r.index.isNone) then
      match s.nextRead t r with
      | .ok v =>
        (s.noteRead t r).putStream tid n
          (if r.desc.mode = 3 then { r with index := some (BitVec.ofNat 64 v), grant := none } else r.deliver v)
      | .error none => s.putStream tid n { r with grant := s.nextGrant t r }
      | .error _ => s
    else s

/-- INDEXED_ELEMENT_REQUEST: the target of an index that has been read is fetched and delivered or folded (R191). -/
def State.indexedFetch (s : State) (tid : Tid) (n : BitVec 2) : State :=
  s.onFree tid n fun t r =>
    if t.streaming && r.fetchesHome && r.desc.mode == 3 && r.index.isSome then
      match s.nextRead t r with
      | .ok v => (s.noteRead t r).putStream tid n (r.deliver v)
      | .error none => s.putStream tid n { r with grant := s.nextGrant t r }
      | .error _ => s
    else s

/-- The fault of a stream as an instruction that needs the element takes it (R192). DEDUCED: assumption 31. -/
def Stream.faultTrap (r : Stream) (n : BitVec 2) : Trap :=
  { kind := 11, detail := r.fcode, info0 := r.faultInfo, info1 := 0#22 ++ n ++ BitVec.ofNat 40 r.faultJ, info2 := r.goPc }
/-- The fault of a stream of a dumped context, whose saddlebag returns or whose sink is made, is a secondary entry of its dump (R246).
DEDUCED: assumption 39. -/
def State.lateFault (s : State) (t : Task) (n : BitVec 2) (r : Stream) : State :=
  if t.cstate = .dumped then s.dumpTask t.tid (trapDump (r.faultTrap n) (t.pc &&& ~~~(3 : Word))) true else s
/-- ELEMENT_FAULT: the next read fails; the saddlebag comes home where it was away, and the stream is faulted (R178, R192). -/
def State.elementFault (s : State) (tid : Tid) (n : BitVec 2) : State :=
  s.onFree tid n fun t r =>
    let out := (r.state == .floated || r.state == .hopping) && r.fidx < r.desc.count
    if (t.streaming && (r.fetchesHome || out)) || (t.cstate == .dumped && out) then
      match s.nextRead t r with
      | .error (some e) =>
        (if r.away then s.bringHome tid n fun r => r.fault e r.fidx else s.putStream tid n (r.fault e r.fidx)).lateFault t n
          (r.fault e r.fidx)
      | _ => s
    else s

/-! ### Floating (R186 to R188) -/

/-- The station of element FIDX (R186): the line's home L2 slice on the core's die, or for a UNC page the home channel
controller on the owning die's side; none where the element lies in scratch or cannot be reached now. -/
def State.stationOf (s : State) (t : Task) (r : Stream) : Option (BitVec 2 × Nat) :=
  match vaOf (r.desc.element r.fidx) with
  | none => none
  | some va =>
    match s.check (t.streamWho r) { r := true } va with
    | .ok (.phys pa e) =>
      if pteMode e = 2 then some ((s.stack (stackOf pa)).owner, channelStation pa) else some (BitVec.ofNat 2 t.die, sliceOf pa)
    | _ => none

/-- STREAM_FLOAT (R186). -/
def State.float (s : State) (tid : Tid) (n : BitVec 2) : State :=
  s.onFree tid n fun t r =>
    if t.streaming && r.state == .running && (r.desc.mode == 0 || r.desc.mode == 2) && !r.pin && !r.hh && !r.hp && r.fidx < r.desc.count then
      match s.stationOf t r with
      | none => s
      | some st => (s.putStream tid n { r with state := .floated, station := some st, grant := none }).streamEvent tid n 1
    else s

/-- STATION_ELEMENT_FETCH (R187): only from the element's own station. -/
def State.stationFetch (s : State) (tid : Tid) (n : BitVec 2) : State :=
  s.onFree tid n fun t r =>
    if t.streaming && r.state == .floated && r.fidx < r.desc.count && r.station.isSome then
      match s.nextRead t r with
      | .ok v => if s.stationOf t r = r.station then (s.noteRead t r).putStream tid n (r.deliver v) else s
      | .error none => s.putStream tid n { r with grant := s.nextGrant t r }
      | .error _ => s
    else s

/-- The note of a saddlebag that leaves its station reports the fold count (R188, R205). -/
def Stream.leave (r : Stream) : Stream := { r with grant := none, didx := if r.desc.reducing then r.fidx else r.didx }
/-- A saddlebag reaches a new station, and the hop is counted (R185, R188). -/
def Stream.hop (r : Stream) (st : BitVec 2 × Nat) : Stream :=
  { r with state := .floated, station := some st, hops := if r.hops = 0xFFFF then r.hops else r.hops + 1 }

/-- SADDLEBAG_LEAVE (R188): the next element's station differs. -/
def State.leaveStation (s : State) (tid : Tid) (n : BitVec 2) : State :=
  s.onFree tid n fun t r =>
    if r.state == .floated && r.fidx < r.desc.count && (s.stationOf t r).isSome && s.stationOf t r != r.station then
      s.putStream tid n { r.leave with state := .hopping }
    else s

/-- SADDLEBAG_ARRIVE (R188): a hop is counted and the hop event raised. -/
def State.arriveStation (s : State) (tid : Tid) (n : BitVec 2) : State :=
  s.onFree tid n fun t r =>
    match r.state, s.stationOf t r with
    | .hopping, some st => (s.putStream tid n (r.hop st)).streamEvent tid n 2
    | _, _ => s

/-- Does the next element lie in scratch (R388)? -/
def Stream.nextInScratch (r : Stream) : Bool :=
  match vaOf (r.desc.element r.fidx) with | some va => decide (scratchBase ≤ va.toNat) | none => false

/-- SADDLEBAG_HOME (R188): a recall, a hold, a sink or an element in scratch brings the saddlebag home; a stream is recalled once its
pending entries are answered too (R200). -/
def State.saddlebagHome (s : State) (tid : Tid) (n : BitVec 2) : State :=
  s.onFree tid n fun _ r =>
    if !r.away then s
    else if r.state = .sinking then s.bringHome tid n id
    else if r.recalling then s.bringHome tid n fun r => { r with state := if r.pend.isEmpty then .recalled else .running }
    else if r.homing || r.nextInScratch then s.bringHome tid n fun r => { r with state := .running }
    else s

/-- ELEMENT_ARRIVAL (R187): the first element on its way reaches the core's buffer. -/
def State.elementArrival (s : State) (tid : Tid) (n : BitVec 2) : State :=
  s.onStream tid n fun _ r =>
    match r.sent with
    | [] => s
    | e :: rest => s.putStream tid n { r with sent := rest, buf := r.buf ++ [e] }

/-- The core reads a pending element of a stream at home again, whose earlier attempt has had to wait or leaves something beside its value
(R169, R190, R193). DEDUCED: assumption 14. -/
def State.rereadOne (s : State) (tid : Tid) (n : BitVec 2) (j : Nat) : State :=
  s.onStream tid n fun t r =>
    if r.away ∨ r.pend.contains j = false then s
    else match s.elementPath (t.streamWho r) tid r.desc j with
    | .ok l => (l.foldl (fun s x => s.noteFor tid r.goPc (t.streamWho r) x) s).putStream tid n (r.replaced j (s.pathIndex l) (s.pathValue l))
    | .error (some e) => s.putStream tid n (r.faultAt e j)
    | .error none => s
/-- The pending elements of a stream at home, each in turn. -/
def State.rereadPending (s : State) (tid : Tid) (n : BitVec 2) : State :=
  s.onStream tid n fun _ r => r.pend.foldl (fun s j => s.rereadOne tid n j) s

/-- ALIAS_NOTE (R190): the note of a pending index reaches the station that holds the saddlebag, which reads the element again; where
the saddlebag is at the core or discarded, the core does. An element that can no longer be read faults the stream there (R192). -/
def State.aliasNote (s : State) (tid : Tid) (n : BitVec 2) (j : Nat) : State :=
  s.onStream tid n fun t r =>
    if r.away = false then s.rereadOne tid n j
    else if r.pend.contains j ∧ r.state = .floated ∧ r.answers.any (·.1 == j) = false ∧ s.eventHeld tid n = false then
      match s.elementPath (t.streamWho r) tid r.desc j with
      | .ok l => (l.foldl (fun s x => s.noteFor tid r.goPc (t.streamWho r) x) s).putStream tid n
          { r with answers := r.answers ++ [(j, BitVec.ofNat 64 (s.pathValue l))] }
      | .error (some e) => s.bringHome tid n fun r => r.faultAt e j
      | .error none => s
    else s

/-- ALIAS_REREAD_ANSWER (R190): the value replaces every copy and the index is no longer pending. -/
def State.aliasAnswer (s : State) (tid : Tid) (n : BitVec 2) : State :=
  s.onStream tid n fun _ r =>
    match r.answers with
    | [] => s
    | a :: rest =>
      s.putStream tid n { r with answers := rest, pend := r.pend.filter (· != a.1), buf := replaceElem a r.buf, sent := replaceElem a r.sent }

/-! ### The sink (R184) -/

/-- The guards of a task's streams after a store of that task. -/
def State.guardOf (s : State) (t : Task) (va n : Nat) (l : Loc) : State :=
  s.modTask t.tid fun u => { u with streams := u.streams.map (s.guard t.who t.tid va n l) }

/-- A wait for the mark of a line goes on, or begins (R328). -/
def keepWait (w : Option (Nat × Nat × Bool)) (line clk : Nat) : Option (Nat × Nat × Bool) :=
  match w with
  | some (l, c, p) => if l = line then some (l, c, p) else some (line, clk, false)
  | none => some (line, clk, false)

/-- A sink has been performed: the stream is ended (R178, R184, R188). -/
def State.sunk (s : State) (tid : Tid) (n : BitVec 2) : State :=
  (s.modTask tid fun t => t.setStream n { t.stream n with state := .ended, hh := false, markWait := none, traced := none, grant := none }
    ).streamEvent tid n 4
/-- The store of a sink at a checked place (R184, R327, R373): it waits for a halter, at its home port or for a mark.
DEDUCED: assumption 58. -/
def State.sinkStore (s : State) (t : Task) (n : BitVec 2) (r : Stream) (pa : Nat) (e : Word) : State :=
  let va := r.desc.sinka.toNat
  if s.haltered t.tid (lineOf pa) ∨ r.traced.any (fun x => !s.traceFree t x) = true then s
  else match s.tracedFor t (.phys pa e) with
  | .error (.wait (.traced port q _)) => s.putStream t.tid n { r with traced := some (r.traced.getD (port, q, s.clk)) }
  | .error _ => s
  | .ok s0 => match s0.markRange t.tid t.die pa 8 with
    | none => s.putStream t.tid n { r with markWait := keepWait r.markWait (lineOf pa) s.clk }
    | some s1 => (((s1.writeThrough t.die pa 8 e).poke pa 8 r.acc.toNat).guardOf t va 8 (.phys pa e)).sunk t.tid n
/-- STREAM_SINK: the core performs the sink of a stream whose reduction is complete and home, of a dumped context too (R246); the sink
waits where it must. DEDUCED: assumption 39. DEDUCED: assumption 58. -/
def State.streamSink (s : State) (tid : Tid) (n : BitVec 2) : State :=
  s.onFree tid n fun t r =>
    let d := r.desc
    let failed (e : SFault) : State := (s.putStream tid n (r.fault e d.count)).lateFault t n (r.fault e d.count)
    if r.state ≠ .sinking ∨ r.away = true ∨ (t.streaming = false ∧ t.cstate ≠ .dumped) then s
    else if d.sink = 0 then s.sunk tid n
    else if d.sink = 1 then
      let pb := (t.port d.sport).pb
      if pb.getLsbD 63 = false then failed { code := 6, info := 0 }
      else match s.sendFrom t d.sport r.acc true with
      | .ok s1 => s1.sunk tid n
      | .error (.trap _) => failed { code := 7, info := (pb.extractLsb' 32 20).setWidth 64 }
      | .error _ => s
    else
      match s.check (t.streamWho r) { w := true } d.sinka with
      | .error b => match b.sfault d.sinka with
        | some e => failed e
        | none => s.putStream tid n { r with grant := (t.streamWho r).keep s.clk b }
      | .ok (.scratch k) => ({ s with scratch := s.scratch.write k 8 r.acc.toNat }.guardOf t d.sinka.toNat 8 (.scratch k)).sunk tid n
      | .ok (.phys pa e) => s.sinkStore t n r pa e

/-! ### What an instruction that needs an element does (R178, R192, R197) -/

/-- The fault of a faulted stream as its first user takes it (R192). DEDUCED: assumption 31. -/
def Stream.raise (r : Stream) (n : BitVec 2) : Stop :=
  if r.fcode = 5 then .park r.faultInfo r.faultLevel (if r.desc.mode = 1 ∨ r.desc.count ≤ r.faultJ then 2 else 1)
  else .trap (r.faultTrap n)

/-- A recalled stream resumes at the core (R178). DEDUCED: assumption 31. -/
def Stream.resumeHome (r : Stream) : Stream := if r.state = .recalled then { r with state := .running, hh := true } else r

/-- One turn of the stream unit for stream n of the executing task at the core: a fetch, or the fault of one. -/
def State.fetchTurn (s : State) (n : BitVec 2) : State :=
  let s1 := s.coreFetch s.task.tid n
  let s2 := s1.indexedFetch s.task.tid n
  if s2.task.stream n = s.task.stream n then s2.elementFault s.task.tid n else s2

/-- Up to `k` turns until element `upTo` has been fetched. DEDUCED: assumption 30. -/
def State.fetchUpTo (s : State) (n : BitVec 2) (upTo : Nat) : Nat → State
  | 0 => s
  | k + 1 => if (s.task.stream n).fidx < upTo then State.fetchUpTo (s.fetchTurn n) n upTo k else s

/-- May SNEXT deliver `k` elements of the stream (R197)? -/
def Stream.nextLegal (r : Stream) (k : Nat) : Bool :=
  r.state != .free && r.state != .defined && r.desc.mode != 1 && !r.desc.reducing && k ≤ r.desc.count - r.didx
/-- Are the elements from DIDX buffered? -/
def Stream.buffered (r : Stream) (k : Nat) : Bool := (List.range k).all fun i => r.buf.any (·.1 == r.didx + i)

/-- The tag field against the stream's format (R194). DEDUCED: assumption 29. -/
def tagMatches (o : Ops) (r : Stream) (pos : Nat) : Except Stop Unit :=
  need (o.x.tag == .raw || o.x.tag == r.desc.fmt) (Stop.format pos r.desc.fmt o.x.tag 0)

/-- What the stream unit does for an SNEXT of `k` elements that passes its checks: a recalled stream whose element DIDX is not buffered
resumes, and a stream at the core fetches. DEDUCED: assumption 30. -/
def State.prepare (s : State) (o : Ops) (k : Nat) (fits : Bool) : State :=
  let n := o.a.setWidth 2
  let r := s.task.stream n
  if fits && r.nextLegal k && (tagMatches o r 3).isOk && !(r.buffered k && r.buffered 1) then
    let r1 := if r.state = .faulted then (if r.didx + k ≤ r.faultJ ∧ r.buffered k = false then { r with hh := true } else r) else r.resumeHome
    (s.setTask (s.task.setStream n r1)).fetchUpTo n (r.didx + k) (2 * k)
  else s

/-- The next `k` elements after scale-and-bias, with the flags (R197). -/
def Stream.take (r : Stream) (k : Nat) : List (Nat × BitVec 6) :=
  (List.range k).map fun i => r.desc.scaleBias (match r.buf.find? (·.1 == r.didx + i) with | some e => e.2.toNat | none => 0)

/-- Check and wait for `k` elements (R197). -/
def State.needElements (s : State) (o : Ops) (k : Nat) : Except Stop Stream := do
  let n := o.a.setWidth 2
  let r := s.task.stream n
  need (r.nextLegal k) Stop.illegalOperand
  tagMatches o r 3
  if r.state = .faulted ∧ r.faultJ < r.didx + k then .error (r.raise n)
  else if r.buffered k && !((List.range k).any fun i => r.pend.contains (r.didx + i)) then .ok r
  else .error (.wait .retry)

/-- The stream after `k` elements have been delivered. -/
def Stream.delivered (r : Stream) (k : Nat) : Stream :=
  { r with didx := r.didx + k, read := r.read.filter fun e => r.didx + k ≤ e.1, buf := r.buf.filter fun e => r.didx + k ≤ e.1, pend := r.pend.filter fun j => r.didx + k ≤ j }

/-- SNEXT (R197); one to a port that is not bound traps at issue (R261). DEDUCED: assumption 29. -/
def execSnext (o : Ops) (s : State) : Host.Outcome State Fault Refusal :=
  let n := o.a.setWidth 2
  let s0 := s.prepare o 1 (!s.unbound (.snext o))
  s0.run (.snext o) (do
    let r ← s0.needElements o 1
    let e := (r.take 1).headD (0, 0)
    let v : Word := if r.desc.fmt.isInt then extend r.desc.fmt e.1 else BitVec.ofNat 64 e.1
    let s1 := (s0.setTask (s0.task.setStream n (r.delivered 1))).flag e.2
    s1.complete o v)

/-- SNEXT to a vector group (R197). DEDUCED: assumption 29. -/
def execSnextVector (o : Ops) (s : State) : Host.Outcome State Fault Refusal :=
  let n := o.a.setWidth 2
  let f := (s.task.stream n).desc.fmt
  let k := s.task.active o (laneBits f)
  let s0 := s.prepare o k (groupFits o.d (s.task.span o)).isOk
  s0.run (.snextVector o) (do
    groupFits o.d (s0.task.span o)
    let r ← s0.needElements o k
    let s1 := s0.setTask (s0.task.setStream n (r.delivered k))
    let rs := r.take k
    let t1 := s1.task.wrGroup o.d (s1.task.span o) (laneBits f) k false f (fun _ _ => 0) fun i => (rs.getD i (0, 0)).1
    .ok (s1.doneTask o t1 (rs.foldl (fun a r => a ||| r.2) 0)))

/-- The checks of an SPUT before its element addresses (R198), and its elements. -/
def State.sputCheck (s : State) (o : Ops) (vector : Bool) : Except Stop (List Nat) := do
  let t := s.task
  let r := t.stream (o.a.setWidth 2)
  let f := r.desc.fmt
  let y ← if vector then .ok 0 else s.srcB o
  need (r.state == .running && r.desc.mode == 1) Stop.illegalOperand
  tagMatches o r 1
  if vector then
    t.tagsAre 1 o.b (t.span o) f true f
    groupFits o.b (t.span o)
  else .ok ()
  let w := laneBits f
  let k := if vector then t.active o w else 1
  need (k ≤ r.desc.count - r.didx) Stop.illegalOperand
  .ok (if vector then (List.range k).map (elemAt (groupNat (t.group o.b (t.span o))) w) else [y.toNat % 2 ^ w])

/-- Where element j of a store stream goes, or its element fault; no fault where it must wait (R192, R198). -/
def State.putLoc (s : State) (d : Desc) (j : Nat) : Except (Option SFault) (Word × Loc) :=
  match vaOf (d.element j) with
  | none => .error (some { code := 1, info := BitVec.ofInt 64 (d.element j) })
  | some va => match s.check s.task.who { w := true } va with
    | .ok l => .ok (va, l)
    | .error b => .error (b.sfault va)
/-- Can the fault of an element be taken now: one that parks only where its record finds room (R258, R332)? -/
def State.faultRoom (s : State) (e : SFault) : Bool :=
  e.code != 5 || s.pagingRoom s.task.tenant (s.task.aspace.extractLsb' 52 12) e.info
/-- The first of `k` elements from DIDX whose store fails its checks faults the stream (R192). -/
def State.putFault (s : State) (n : BitVec 2) (k : Nat) : State :=
  let r := s.task.stream n
  match (List.range k).findSome? fun i => (match s.putLoc r.desc (r.didx + i) with | .error (some e) => some (e, r.didx + i) | _ => none) with
  | some e => if s.faultRoom e.1 then s.setTask (s.task.setStream n (r.fault e.1 e.2)) else s
  | none => s

/-- Store `vs` through the store stream (R198): every check before any write. -/
def State.sputAll (s : State) (o : Ops) (vs : List Nat) : Except Stop State := do
  let n := o.a.setWidth 2
  let r := s.task.stream n
  let d := r.desc
  let es := vs.map d.scaleBias
  let ls ← (List.range vs.length).mapM fun i => do
    let va := BitVec.ofInt 64 (d.element (r.didx + i))
    let l ← s.access { w := true } va
    .ok (va, l)
  ls.forM fun l => s.notHaltered l.2
  let s1 ← s.storeAll d.size (ls.zip (es.map (·.1)))
  let r1 := s1.task.stream n
  let r2 := { r1 with didx := r1.didx + vs.length }
  let r3 := if r2.didx = d.count then { r2 with state := .ended, hh := false } else r2
  .ok (s1.doneTask o (s1.task.setStream n r3) (es.foldl (fun a e => a ||| e.2) 0))

/-- An SPUT: an element whose store fails its checks faults the stream, and the instruction raises that fault (R192, R198).
DEDUCED: assumption 29. -/
def State.sput (s : State) (i : Instr) (o : Ops) (vector : Bool) : Host.Outcome State Fault Refusal :=
  let n := o.a.setWidth 2
  let c := s.sputCheck o vector
  let s0 := match c with | .ok vs => s.putFault n vs.length | .error _ => s
  s0.run i (do
    let vs ← c
    let r := s0.task.stream n
    if r.state = .faulted then .error (r.raise n) else s0.sputAll o vs)
/-- SPUT (R198). -/
def execSput (o : Ops) (s : State) : Host.Outcome State Fault Refusal := s.sput (.sput o) o false
/-- SPUT of a vector group (R198). DEDUCED: assumption 29. -/
def execSputVector (o : Ops) (s : State) : Host.Outcome State Fault Refusal := s.sput (.sputVector o) o true

/-- What an instruction that waits for the end of a stream makes the stream unit do: a recalled stream resumes, and a load or reduce
stream at the core takes one element or performs its sink. DEDUCED: assumption 30. -/
def State.prepareEnd (s : State) (n : BitVec 2) : State :=
  let r := s.task.stream n
  if r.state = .free ∨ r.state = .defined then s
  else
    let s1 := s.setTask (s.task.setStream n r.resumeHome)
    if r.desc.mode = 1 then s1
    else
      let s2 := s1.fetchTurn n
      s2.streamSink s2.task.tid n

/-- SSINK (R199); one to a port that is not bound traps at issue (R261). -/
def execSsink (o : Ops) (s : State) : Host.Outcome State Fault Refusal :=
  let n := o.a.setWidth 2
  let s0 := if (s.task.stream n).desc.reducing && !s.unbound (.ssink o) then s.prepareEnd n else s
  s0.run (.ssink o) (do
    let r := s0.task.stream n
    need (r.state != .free && r.state != .defined && r.desc.reducing) Stop.illegalOperand
    if r.state = .faulted then .error (r.raise n)
    else if r.state = .ended then
      let s1 := (s0.setTask (s0.task.setStream n { r with flg := 0 })).flag (r.flg.setWidth 6)
      s1.complete o (if r.desc.sink = 0 then r.acc else BitVec.ofNat 64 r.desc.count)
    else .error (.wait .retry))

/-- SRECALL (R200): a stream at the core is recalled once its pending entries are answered; one that is away is called home first. -/
def execSrecall (o : Ops) (s : State) : Host.Outcome State Fault Refusal :=
  let n := o.a.setWidth 2
  let r := s.task.stream n
  let r1 :=
    if r.state = .running then (if r.pend.isEmpty then { r with state := .recalled, grant := none } else r)
    else if r.state = .floated ∨ r.state = .hopping then { r with recalling := true }
    else r
  let s0 := s.setTask (s.task.setStream n r1)
  s0.run (.srecall o) (do
    need (r.state != .free) Stop.illegalOperand
    need (!r1.away && r1.state != .running) (.wait .retry)
    .ok (s0.advance o))

/-- SWAIT.home (R201). -/
def execSwaitHome (o : Ops) (s : State) : Host.Outcome State Fault Refusal :=
  s.run (.swaitHome o) (do
    let r := s.task.stream (o.a.setWidth 2)
    need (r.state != .free) Stop.illegalOperand
    need (!r.away) (.wait .retry)
    .ok (s.advance o))

/-- SWAIT.end (R201): as SSINK waits; a load or store stream ends when DIDX reaches N. -/
def execSwaitEnd (o : Ops) (s : State) : Host.Outcome State Fault Refusal :=
  let n := o.a.setWidth 2
  let s0 := s.prepareEnd n
  s0.run (.swaitEnd o) (do
    let r := s0.task.stream n
    need (r.state != .free && r.state != .defined) Stop.illegalOperand
    if r.state = .faulted then .error (r.raise n)
    else if (if r.desc.reducing then r.state == .ended else r.didx == r.desc.count) then .ok (s0.advance o)
    else .error (.wait .retry))

/-- SSTAT (R202). -/
def execSstat (o : Ops) (s : State) : Host.Outcome State Fault Refusal :=
  s.run (.sstat o) (s.complete o (s.task.stream (o.a.setWidth 2)).image)

/-- SSTAT.clr (R202): clears the EV bits it has read. -/
def execSstatClr (o : Ops) (s : State) : Host.Outcome State Fault Refusal :=
  s.run (.sstatClr o) (do
    let n := o.a.setWidth 2
    let r := s.task.stream n
    (s.setTask (s.task.setStream n { r with ev := 0 })).complete o r.image)

/-- SHOLD (R203): HP is set; a saddlebag that is away comes home first. -/
def execShold (o : Ops) (s : State) : Host.Outcome State Fault Refusal :=
  let n := o.a.setWidth 2
  let r := s.task.stream n
  let r1 :=
    if r.state = .free then r
    else { r with hp := true, homing := r.homing || r.state == .floated || r.state == .hopping }
  let s0 := s.setTask (s.task.setStream n r1)
  s0.run (.shold o) (do
    need (r.state != .free) Stop.illegalOperand
    need (!(r.state == .floated || r.state == .hopping)) (.wait .retry)
    .ok (s0.advance o))

/-- SHOLD.off (R203). -/
def execSholdOff (o : Ops) (s : State) : Host.Outcome State Fault Refusal :=
  s.run (.sholdOff o) (do
    let n := o.a.setWidth 2
    let r := s.task.stream n
    need (r.state != .free) Stop.illegalOperand
    .ok ((s.setTask (s.task.setStream n { r with hp := false, pin := false })).advance o))

/-- SFREE (R204). -/
def execSfree (o : Ops) (s : State) : Host.Outcome State Fault Refusal :=
  .next ((s.setTask (s.task.setStream (o.a.setWidth 2) {})).advance o)

/-- SDEF (R195). The EPOCH of the register starts at 0. DESIGN CHOICE: assumption 31. -/
def execSdef (o : Ops) (s : State) : Host.Outcome State Fault Refusal :=
  s.run (.sdef o) (do
    let n := o.d.setWidth 2
    let va ← s.srcA o
    need ((s.task.stream n).state == .free) Stop.illegalOperand
    need (s.contexts s.task.core < 8) (Stop.resource 1)
    let x0 ← s.load {} va 64 64
    let x1 ← s.load {} (va + 64) 64 64
    let x : BitVec 1024 := BitVec.ofNat 1024 (x0 + 2 ^ 512 * x1)
    let d := descOf x
    need ((Fmt.ofCode (x.extractLsb' 320 5).toNat).isSome && d.legal) Stop.illegalOperand
    if d.evmask ≠ 0 then
      need (d.evctr.toNat % 8 == 0) Stop.illegalOperand
      match s.check s.task.who { ctr := .require } d.evctr with
      | .ok _ => .ok ()
      | .error (.transit k held) => .error (.wait (.transit k held 0))
      | .error .busy => .error (.wait .retry)
      | .error _ => .error Stop.illegalOperand
    else .ok ()
    .ok (s.doneTask o (s.task.setStream n { state := .defined, desc := d, pin := x.getLsbD 335 }) 0))

/-- The stream as SGO leaves it (R196): one that starts, resumes, or retries its faulting element or its sink.
DEDUCED: assumption 31. -/
def Stream.go (r : Stream) (pc : Word) : Stream :=
  let r1 := { r with hh := false, epoch := r.epoch + 1, goPc := pc }
  match r.state with
  | .defined => { r1 with state := .running, fidx := 0, didx := 0, acc := if r.desc.reducing then r.desc.accInit else 0, flg := 0,
                          hops := 0, index := none }
  | .recalled => { r1 with state := .running }
  | .faulted =>
    if r.desc.count ≤ r.faultJ then { r1 with state := .sinking, fcode := 0 }
    else { r1 with state := .running, fcode := 0, index := none }
  | _ => r

/-- SGO (R196): the kick store orders nothing more in this model, whose accesses perform at once. -/
def execSgo (o : Ops) (s : State) : Host.Outcome State Fault Refusal :=
  s.run (.sgo o) (do
    let n := o.a.setWidth 2
    let r := s.task.stream n
    need (r.state != .free) Stop.illegalOperand
    .ok ((s.setTask (s.task.setStream n (r.go s.task.pc))).advance o))

/-! ### The events -/

/-- STREAM_FLOAT (R186). DEDUCED: assumption 30. -/
def execStreamFloat (tid : BitVec 48) (r : BitVec 2) (s : State) : Host.Outcome State Fault Refusal := .next (s.float tid r)
/-- SADDLEBAG_LEAVE (R188). -/
def execSaddlebagLeave (tid : BitVec 48) (r : BitVec 2) (s : State) : Host.Outcome State Fault Refusal := .next (s.leaveStation tid r)
/-- SADDLEBAG_ARRIVE (R188). -/
def execSaddlebagArrive (tid : BitVec 48) (r : BitVec 2) (s : State) : Host.Outcome State Fault Refusal :=
  .next (s.arriveStation tid r)
/-- STATION_ELEMENT_FETCH (R187). -/
def execStationElementFetch (tid : BitVec 48) (r : BitVec 2) (s : State) : Host.Outcome State Fault Refusal :=
  .next (s.stationFetch tid r)
/-- CORE_ELEMENT_FETCH (R180). -/
def execCoreElementFetch (tid : BitVec 48) (r : BitVec 2) (s : State) : Host.Outcome State Fault Refusal := .next (s.coreFetch tid r)
/-- ELEMENT_ARRIVAL (R187). -/
def execElementArrival (tid : BitVec 48) (r : BitVec 2) (s : State) : Host.Outcome State Fault Refusal := .next (s.elementArrival tid r)
/-- ALIAS_NOTE (R190). -/
def execAliasNote (tid : BitVec 48) (r : BitVec 2) (j : Nat) (s : State) : Host.Outcome State Fault Refusal := .next (s.aliasNote tid r j)
/-- ALIAS_REREAD_ANSWER (R190). -/
def execAliasRereadAnswer (tid : BitVec 48) (r : BitVec 2) (s : State) : Host.Outcome State Fault Refusal := .next (s.aliasAnswer tid r)
/-- ELEMENT_FAULT (R192). -/
def execElementFault (tid : BitVec 48) (r : BitVec 2) (s : State) : Host.Outcome State Fault Refusal := .next (s.elementFault tid r)
/-- SADDLEBAG_HOME (R188). -/
def execSaddlebagHome (tid : BitVec 48) (r : BitVec 2) (s : State) : Host.Outcome State Fault Refusal := .next (s.saddlebagHome tid r)
/-- STREAM_SINK (R184). -/
def execStreamSink (tid : BitVec 48) (r : BitVec 2) (s : State) : Host.Outcome State Fault Refusal := .next (s.streamSink tid r)
/-- INDEXED_ELEMENT_REQUEST (R191). -/
def execIndexedElementRequest (tid : BitVec 48) (r : BitVec 2) (s : State) : Host.Outcome State Fault Refusal :=
  .next (s.indexedFetch tid r)

end Sys2Proof.Machine
end

