-- ==== Sys2Proof/Machine/Context.lean ====
section
/-! DEFINITION. Contexts (R232 to R256, R264, R318, R389, R390): the context area, halt, save, restore and placement of tasks,
dumps, and the instructions on tasks other than those of the status registers. -/

namespace Sys2Proof.Machine

open Sys2Proof

/-! ### The context area (R234, R264, R297, R389) -/

/-- CSTATE code (R236). -/
def CState.code : CState → Nat
  | .free => 0 | .ready => 1 | .running => 2 | .waiting => 3 | .parked => 4 | .preempted => 5 | .migrating => 6 | .dumped => 7

/-- The saddlebag (R185). -/
def Stream.saddlebag (r : Stream) (t : Task) (n : Nat) : BitVec 512 :=
  let d := r.desc
  let e0 := d.ext0.toNat
  let e1 := d.ext1.toNat
  let acc : Word := if d.reducing then r.acc else 0
  acc ++ BitVec.ofInt 48 (d.element r.fidx) ++ BitVec.ofNat 40 r.fidx ++ d.stride2 ++ d.stride1 ++ d.stride0 ++
    d.ext2.setWidth 20 ++ d.ext1.setWidth 20 ++ d.ext0.setWidth 20 ++
    BitVec.ofNat 20 (r.fidx / (e0 * e1)) ++ BitVec.ofNat 20 (r.fidx / e0 % e1) ++ BitVec.ofNat 20 (r.fidx % e0) ++
    d.evctr.setWidth 48 ++ d.evmask ++ r.flg ++ d.fmt.code ++ d.mode ++ d.op ++
    BitVec.ofNat 14 t.core ++ BitVec.ofNat 2 t.slot ++ BitVec.ofNat 2 n ++ r.hops ++ BitVec.ofNat 6 r.pend.length ++ r.epoch ++ 0#20

/-- The 192 bytes of a stream register (R389), as offset and value. -/
def Stream.saved (r : Stream) (t : Task) (n : Nat) : List (Nat × Nat) :=
  if r.state = .free then []
  else
    let d := r.desc
    let o := 0x440 + 192 * n
    let flt (x : Nat) : Nat := if r.state = .faulted then x else 0
    [(o, (r.saddlebag t n).toNat), (o + 0x40, d.tbase.toNat), (o + 0x48, d.sinka.toNat),
     (o + 0x50, d.tstride.toNat + 2 ^ 32 * d.ibound.toNat),
     (o + 0x58, d.ifmt.toNat + 4 * d.sink.toNat + 16 * d.sport.toNat + if r.pin then 64 else 0),
     (o + 0x60, flt r.faultJ), (o + 0x68, flt r.faultInfo.toNat), (o + 0x70, r.goPc.toNat), (o + 0x80, r.image.toNat)]

/-- A saved tile at window entry n. -/
def Tile.savedAt (x : Tile) (n : Nat) : List (Nat × Nat) :=
  let o := 0x800 + 0x8C0 * n
  [(o, x.rows.toNat), (o + 0x800, x.scales.toNat), (o + 0x880, x.special.toNat), (o + 0x884, x.tag.code.toNat)]

/-- The context area of a task (R234), as offset and value; `cs` is the state its header names. -/
def Task.areaParts (t : Task) (cs : CState) : List (Nat × Nat) :=
  [(0x00, t.tid.toNat), (0x08, t.pc.toNat),
   (0x10, t.core % 2 ^ 14 + 2 ^ 14 * (t.slot % 4) + 2 ^ 16 * cs.code + if t.parked then 2 ^ 19 else 0),
   (0x18, t.target), (0x20, t.aspace.toNat)] ++
  t.g.toList.mapIdx (fun n x => (0x40 + 8 * n, (if n = 0 then 0 else x).toNat)) ++
  t.v.toList.mapIdx (fun n x => (0x140 + 16 * n, x.bits.toNat)) ++
  t.v.toList.mapIdx (fun n x => (0x340 + 2 * n, x.tag.code.toNat + 256 * x.scale.toNat)) ++
  (List.range 8).map (fun n => (0x380 + 8 * n, (t.rdP (BitVec.ofNat 3 n)).image.toNat)) ++
  ([t.stat, t.epc, t.ecause, t.einfo0, t.einfo1, t.einfo2, t.estat, t.tvec, t.ctxa, t.fsr, t.seed, t.twin, t.jsr, t.rank,
    t.kcur].mapIdx fun n x => (0x3C0 + 8 * n, x.toNat)) ++
  (t.streams.toList.mapIdx fun n r => r.saved t n).flatten ++
  t.ports.toList.mapIdx (fun n p => (0x740 + 8 * n, p.pb.toNat + p.queue.length)) ++
  t.ports.toList.mapIdx (fun n p => (0x760 + n, p.queue.length)) ++
  t.groups.mapIdx (fun n pa => (0x764 + 6 * n, pa / 64)) ++
  (t.ports.toList.mapIdx fun n p => p.queue.mapIdx fun i w => (0x780 + 32 * n + 8 * i, w.word.value.toNat)).flatten ++
  ((t.saved.getD []).map fun x => x.2.savedAt x.1).flatten

/-- The whole area as one number, byte 0 lowest. -/
def Task.area (t : Task) (cs : CState) : Nat := (t.areaParts cs).foldl (fun n p => n + p.2 * 2 ^ (8 * p.1)) 0
/-- Lines of 64 bytes in an area. -/
def areaLines : Nat := 0x4E00 / 64
/-- Line k of an area. -/
def areaLine (x k : Nat) : Nat := x / 2 ^ (512 * k) % 2 ^ 512

/-- The place of line k of a task's area, as the core that holds it or takes it reaches it. -/
def State.areaCheck (s : State) (t : Task) (core k : Nat) : Except Bad Loc :=
  s.check { t.who with core := core, sup := true, granted := none } { r := true, w := true } (t.ctxa + BitVec.ofNat 64 (64 * k))
/-- Physical addresses of the lines of a task's area, on a page of any mode with R and W; none where the hardware cannot reach one of them.
DESIGN CHOICE: assumption 15. -/
def State.areaPas (s : State) (t : Task) (core : Nat := t.core) : Option (List Nat) :=
  (List.range areaLines).mapM fun k =>
    match s.areaCheck t core k with
    | .ok (.phys pa _) => if t.ctxa.toNat % 64 = 0 then some pa else none
    | _ => none
/-- Must a save or a restore wait for a line of the area: its frame is in transit (R98), there is no way to its home (R360), or it is under
a halter (R168)? -/
def State.areaWaits (s : State) (t : Task) (core : Nat := t.core) : Bool :=
  (List.range areaLines).any fun k =>
    match s.areaCheck t core k with
    | .ok (.phys pa _) => s.halters.any (·.line == lineOf pa)
    | .ok (.scratch _) => false
    | .error b => b.waits

/-- Write the lines of an area. -/
def State.writeLines (s : State) (pas : List Nat) (x : Nat) : State :=
  ((List.range pas.length).zip pas).foldl (fun s p => s.poke p.2 64 (areaLine x p.1)) s
/-- The hardware writes a task's context area (R234, R243); a context whose area it cannot reach is kept by the device alone
(DESIGN CHOICE, assumption 15). -/
def State.writeArea (s : State) (t : Task) (cs : CState) : State :=
  match s.areaPas t with | none => s | some pas => s.writeLines pas (t.area cs)

/-- What a restore takes from an area: whether every byte but header words 2 and 3 and the TWIN word stands as saved, and those
words (R234). -/
structure AreaRead where
  ok    : Bool
  word2 : Word
  word3 : Word
  twin  : Word
deriving DecidableEq, Repr

/-- A line with the words that software may rewrite cleared. -/
def areaMasked (k : Nat) (x : Nat) : Nat :=
  let b : BitVec 512 := BitVec.ofNat 512 x
  (if k = 0 then b &&& ~~~((BitVec.allOnes 128).setWidth 512 <<< 128)
   else if k = 16 then b &&& ~~~((BitVec.allOnes 64).setWidth 512 <<< 192) else b).toNat

/-- Bits of TWIN that are no reserved field (R208). -/
def twinMask : Word := 0xBFBFBFBFBFBFBFBF

/-- DESIGN CHOICE: assumption 15. -/
def State.readArea (s : State) (t : Task) (core : Nat := t.core) : AreaRead :=
  match s.areaPas t core with
  | none => { ok := true, word2 := BitVec.ofNat 64 (2 ^ 16 * t.cstate.code + if t.parked then 2 ^ 19 else 0), word3 := BitVec.ofNat 64 t.target, twin := t.twin }
  | some pas =>
    let x := t.area t.cstate
    let line (k : Nat) : Nat := s.mem.read (pas.getD k 0) 64
    let word (k lo : Nat) : Word := BitVec.ofNat 64 (line k / 2 ^ lo)
    { ok := (List.range areaLines).all fun k => areaMasked k (line k) == areaMasked k (areaLine x k)
      word2 := word 0 128, word3 := word 0 192, twin := word 16 192 }

/-! ### Halt and save (R242, R243) -/

/-- A halt sends for a stream's saddlebag (R193). -/
def Stream.callHome (r : Stream) : Stream := if r.away && r.state != .sinking then { r with homing := true } else r

/-- A data error of a task is taken at the boundary it stands at (R239, R240): always fatal, with IMP set, EPC the next instruction, EINFO0
the PC of the access and EINFO1 its physical address. -/
def State.dataFault (s : State) (t : Task) (pc pa : Word) : State :=
  let x : Trap := { kind := 14, imp := true, info0 := pc, info1 := pa }
  let epc := t.pc &&& ~~~(3 : Word)
  (s.modTask t.tid fun t => { t.saveTrap x epc with dataErr := none }).dumpTask t.tid (trapDump x epc) true
/-- The executing task takes the data error of an access. DEDUCED: assumption 22. -/
def State.takeDataError (s : State) (pc : Word) (pa : Nat) : State := s.dataFault s.task pc (BitVec.ofNat 64 pa)

/-- The halt of the executing task: an uncommitted tile access rolls back, the stalled instruction is abandoned with its monitor
or slot, and floated streams are recalled. A data error that is due at the boundary comes first (R239, R240). -/
def State.haltNow (s : State) : State :=
  let s1 := s.rollbackTile
  if s1.task.inSlot then
    match s1.task.dataErr with
    | some (_, pc, pa) => s1.takeDataError pc pa
    | none =>
      s1.setTask { s1.task with cstate := .migrating, wait := .none, stored := none, streams := s1.task.streams.map Stream.callHome }
  else s1
/-- Halt a task (R242). DEDUCED: assumption 38. -/
def State.haltTask (s : State) (tid : Tid) : State := s.asTask tid State.haltNow

/-- PREEMPT_REQUEST (R242). -/
def execPreemptRequest (tid : BitVec 48) (s : State) : Host.Outcome State Fault Refusal := .next (s.haltTask tid)

/-- A stream's saddlebag is brought home, and the core answers its notes (R193). -/
def State.streamHome (s : State) (tid : Tid) (n : BitVec 2) : State :=
  (s.onFree tid n fun _ r =>
    if r.away then s.bringHome tid n fun r => if r.state = .sinking then r else { r with state := .running } else s).rereadPending tid n
/-- Must a job be over before the context of a task is saved: its last k-step is done and its completion is due, and it reserves a tile of
the window or reports to the task's JSR (R224, R231)? -/
def Job.due (j : Job) (t : Task) : Bool :=
  j.live && j.state == .running && j.kdone == j.kc && (j.touches t || (j.mma && j.tid == t.tid))
/-- What a save waits for is brought about (R243): saddlebags home with their notes answered, jobs past their last k-step complete. -/
def State.settle (s : State) (tid : Tid) : State :=
  let s1 := (List.range 4).foldl (fun s n => s.streamHome tid (BitVec.ofNat 2 n)) s
  match s1.findTask tid with
  | none => s1
  | some t => (List.range 32).foldl (fun s e => if ((s.cluster t.cluster).job e).due t then s.completeJob t.cluster e else s) s1
/-- Has the buffer of a paddock's debug queue room for a record (R270, R368)? DEDUCED: assumption 68. -/
def State.debugRoom (s : State) (tenant : BitVec 12) : Bool :=
  match s.paddock tenant with | some p => decide (p.dbgBuf.length < 64) | none => true
/-- A record joins the debug queue's buffer. -/
def State.debugAppend (s : State) (tenant : BitVec 12) (x : BitVec 512) : State :=
  s.modPaddock tenant fun p => { p with dbgBuf := p.dbgBuf ++ [x] }
/-- A stop record (R369): TID, saved PC and n. -/
def stopRecord (tid : Tid) (pc : Word) (n : Nat) : BitVec 512 :=
  (0#320 ++ BitVec.ofNat 64 n ++ pc ++ tid.setWidth 64 : BitVec 512)
/-- Is nothing outstanding that a save waits for (R243): streams, jobs, the way to the area, and room for the record of a debug stop, which
follows the save (R369)? -/
def State.settled (s : State) (tid : Tid) : Bool :=
  match s.findTask tid with
  | none => true
  | some t => t.streams.toList.all (fun r => !r.away && r.pend.isEmpty) && !((List.range 32).any fun e => ((s.cluster t.cluster).job e).due t) &&
      (t.cstate == .dumped || ((t.saved.isSome || !s.areaWaits t) && (t.stopRec.isNone || s.debugRoom t.tenant)))
/-- What a save keeps of a stream: buffered elements are discarded and FIDX goes back to DIDX (R193). -/
def Stream.discard (r : Stream) : Stream :=
  { r with buf := [], sent := [], pend := [], answers := [], index := none, read := [], grant := none, fidx := r.didx, recalling := false, homing := false }
/-- The record of a task's debug stop is posted (R369). -/
def State.postStop (s : State) (t : Task) : State :=
  match t.stopRec with
  | none => s
  | some n => (s.debugAppend t.tenant (stopRecord t.tid t.pc n)).modTask t.tid fun t => { t with stopRec := none }

/-- The rank of a task with its tenant, as redirects name it. -/
def Task.rankKey (t : Task) : BitVec 32 := t.tenant ++ t.rank.extractLsb' 0 20
/-- Does a word go to a task's rank? -/
def Task.takes (t : Task) (w : QWord) : Bool :=
  t.rank.getLsbD 63 && w.word.tenant == t.tenant && w.word.rank == t.rank.extractLsb' 0 20

/-- The interface of a task's core marks its rank in transit (R244): words for it in the inbound buffer are held, before any
that an earlier interface still held. DEDUCED: assumption 44. -/
def State.holdWords (s : State) (t : Task) : State :=
  let c0 := s.core t.core
  let mine := c0.inbound.filter t.takes
  let late := match t.oldCore with
    | some k => if k = t.core then [] else (s.core k).held.filter t.takes
    | none => []
  let s1 := match t.oldCore with
    | some k => if k = t.core then s else
        let c := s.core k
        s.setCore k { c with held := c.held.filter (fun w => !t.takes w)
                             redirect := (t.rankKey, t.core) :: c.redirect.filter (·.1 != t.rankKey) }
    | none => s
  let c := s1.core t.core
  s1.setCore t.core { c with inbound := c0.inbound.filter (fun w => !t.takes w), held := mine ++ c.held ++ late }

/-- The save of a halted task (R243): saddlebags with their notes and jobs are waited for, then the context is in its area.
DEDUCED: assumption 38. -/
def State.saveTask (s : State) (tid : Tid) (cs : CState) (target : Nat) : State :=
  match s.findTask tid with
  | none => s
  | some t0 =>
    if t0.cstate = .migrating ∧ t0.saved = none then
      let s1 := s.settle tid
      if s1.settled tid = false then s1 else
      let s2 := (s1.holdJobs t0).holdWords t0
      let tiles := s2.snapTiles t0
      let s3 := s2.modTask tid fun t =>
        { t with cstate := cs, saved := some tiles, target := target, oldCore := some t.core,
                 streams := t.streams.map Stream.discard }
      let s4 := { s3 with recent := s3.recent.filter (·.1 != tid) }
      match s4.findTask tid with | none => s4 | some t => (s4.writeArea t cs).postStop t
    else s
/-- CONTEXT_SAVE (R243): the context of a halted task becomes pre-empted. -/
def State.saveHalted (s : State) (tid : Tid) : State :=
  match s.findTask tid with | none => s | some t => s.saveTask tid .preempted t.core
def execContextSave (tid : BitVec 48) (s : State) : Host.Outcome State Fault Refusal := .next (s.saveHalted tid)

/-! ### Placement and restore (R236, R245, R248) -/

/-- A slot of a core that no task holds. DESIGN CHOICE: assumption 19. -/
def State.emptySlot (s : State) (core : Nat) : Option Nat :=
  s.choose ((List.range 4).filter fun n => !(s.tasks.any fun t => t.inSlot && t.core == core && t.slot == n))
/-- A free slot of a core, none while its ready queue holds a context. DESIGN CHOICE: assumption 19. -/
def State.freeSlot (s : State) (core : Nat) : Option Nat :=
  if (s.core core).ready.isEmpty then s.emptySlot core else none
/-- Can a core take one more context (R236)? -/
def State.hasRoom (s : State) (core : Nat) : Bool := (s.freeSlot core).isSome || (s.core core).ready.length < 8

/-- A faulted stream whose page has been filled goes on at its faulting element, or at its sink (R192).
DEDUCED: assumption 31. -/
def Stream.refilled (r : Stream) : Stream :=
  { r with state := if r.desc.count ≤ r.faultJ then .sinking else .running, fcode := 0, filled := false }

/-- Header word 2 of a context that has joined or left a core's ready queue (R236). -/
def readyWord (cs : CState) (core : Nat) (w : Word) : Word :=
  (w &&& ~~~(0x73FFF : Word)) ||| BitVec.ofNat 64 (core % 2 ^ 14 + 2 ^ 16 * cs.code)

/-- The state in which a task enters a slot. -/
def Task.enter (t : Task) (core slot : Nat) : Task :=
  { t with streams := t.streams.map (fun r => if r.filled then r.refilled else r), cstate := if t.parked then .parked else .running, core := core, slot := slot, wait := .none, saved := none, tile := none }

/-- Add a task to the contexts of the package. -/
def State.addTask (s : State) (t : Task) : State := { s with others := s.others ++ [t] }

/-- Place a new task on a core that has room (R236, R248): in a free slot, or at the tail of the ready queue with its context in
its area. The island of the core is awake before (R385). DEDUCED: assumption 63. DEDUCED: assumption 65. -/
def State.enrol (s0 : State) (t : Task) (core : Nat) : State :=
  let s := s0.wakeIsland (islandOf core)
  match s.freeSlot core with
  | some n => s.addTask (t.enter core n)
  | none =>
    let u := { t with cstate := .ready, core := core, target := core, saved := some [] }
    let c := s.core core
    ((s.setCore core { c with ready := c.ready ++ [u.tid] }).addTask u).writeArea u .ready

/-- Forward the words that the old interface held, and then let it redirect (R244). DEDUCED: assumption 44. -/
def State.forward (s : State) (tid : Tid) : State :=
  match s.findTask tid with
  | none => s
  | some t =>
    match t.oldCore with
    | none => s
    | some k =>
      if t.inSlot = false ∨ t.saved.isSome = true ∨ s.route t.tenant (k / 2304) t.die = false then s
      else
        let old := s.core k
        let mine := old.held.filter t.takes
        let others := old.held.filter fun w => !t.takes w
        let room := 256 - ((s.core t.core).inbound.length + (if k = t.core then others else (s.core t.core).held).length)
        let s1 := s.setCore k { old with held := mine.drop room ++ others }
        let c := s1.core t.core
        let s2 := s1.setCore t.core { c with inbound := c.inbound ++ mine.take room
                                             redirect := c.redirect.filter (·.1 != t.rankKey) }
        if room < mine.length then s2
        else
          let o := s2.core k
          let s3 := if k = t.core ∨ t.rank.getLsbD 63 = false then s2
            else s2.setCore k { o with redirect := (t.rankKey, t.core) :: o.redirect.filter (·.1 != t.rankKey) }
          s3.modTask tid fun t => { t with oldCore := none }
/-- MIGRATION_FORWARD (R244). -/
def execMigrationForward (tid : BitVec 48) (s : State) : Host.Outcome State Fault Refusal := .next (s.forward tid)

/-- Restore a saved context into slot n of a core (R245): the tiles of its area into the physical tiles that the TWIN word names, its held
jobs, its words; PARKED is as the header has it (R234, R237). The area holds zeros for an entry that was not mapped at the save. Its streams
keep their contexts also where the core's other tasks hold all eight (R176). DESIGN CHOICE: assumption 31. -/
def State.restoreInto (s0 : State) (t : Task) (core n : Nat) (a : AreaRead) : State :=
  let s := s0.wakeIsland (islandOf core)
  let u := { Task.enter { t with parked := a.word2.getLsbD 19 } core n with twin := a.twin &&& twinMask }
  let tiles := t.saved.getD []
  let s1 := (List.range 8).foldl (fun s j =>
    match u.window j with
    | some p => s.setCluster (core / 8) ((s.cluster (core / 8)).putTile p (((tiles.find? (·.1 == j)).map (·.2)).getD {}))
    | none => s) s
  let s2 := s1.settleHeld t.tid (core / 8 == t.cluster && u.twin == t.twin)
  (s2.modTask t.tid fun _ => u).forward t.tid

/-- How a restore ends. -/
inductive Restore where
  | refused
  | full
  | done (s : State)

/-- Restore a saved task on a core as SPAWN places a task (R245, R256), refuse it (R234), or wait for room or for its area. -/
def State.restore (s : State) (t : Task) (core : Nat) : Restore :=
  let a := s.readArea t core
  if s.areaWaits t core then .full
  else if a.ok = false then .refused
  else match s.freeSlot core with
  | some n => .done (s.restoreInto t core n a)
  | none =>
    let c := s.core core
    if c.ready.length < 8 then
      .done (((s.setCore core { c with ready := c.ready ++ [t.tid] }).modTask t.tid fun t => { t with cstate := .ready }).reword t.tid
        (readyWord .ready core))
    else .full

/-- A restore that the core itself refuses is fatal (R241, R246). -/
def State.refuseRestore (s : State) (t : Task) : State := s.dumpTask t.tid { ecause := 2, epc := t.pc } true

/-- CONTEXT_RESTORE (R245): a pre-empted context into a free slot of a core of its paddock. -/
def execContextRestore (tid : BitVec 48) (core : Nat) (s : State) : Host.Outcome State Fault Refusal :=
  .next (match s.findTask tid with
    | none => s
    | some t =>
      let inside : Bool := match s.paddock t.tenant with | some p => p.hasCore core | none => false
      if t.cstate = .preempted ∧ t.saved.isSome = true ∧ inside = true ∧ s.route t.tenant t.die (core / 2304) = true then
        match s.restore t core with
        | .refused => s.refuseRestore t
        | .full => s
        | .done s1 => s1
      else s)

/-- The head of a core's ready queue enters a free slot (R236); a context that R234 refuses is dumped and the next one tried. -/
def State.takeReady (s : State) (core : Nat) : Nat → State
  | 0 => s
  | fuel + 1 =>
    let c := s.core core
    match c.ready with
    | [] => s
    | tid :: rest =>
      match s.emptySlot core with
      | none => s
      | some n =>
        let s1 := s.setCore core { c with ready := rest }
        match s1.findTask tid with
        | none => State.takeReady s1 core fuel
        | some t =>
          let a := s1.readArea t
          if s1.areaWaits t then s
          else if a.ok then s1.restoreInto t core n a else State.takeReady (s1.refuseRestore t) core fuel
/-- READY_QUEUE_TAKE (R236). -/
def execReadyQueueTake (core : Nat) (s : State) : Host.Outcome State Fault Refusal := .next (s.takeReady core 8)

/-! ### The end of a task (R249, R390) -/

/-- The context is gone. -/
def State.dropTask (s : State) (tid : Tid) : State :=
  { s with task := if s.task.tid = tid then {} else s.task, others := s.others.filter (·.tid != tid) }

/-- Is an activation of a mailbox that the task bound still in delivery (R265)? -/
def State.delivering (s : State) (tid : Tid) : Bool := s.mailboxes.any fun m => m.tid == tid && !m.pending.isEmpty

/-- What an activation's message leaves in its core's profile when it ends (R370, R371). DEDUCED: assumption 66. -/
def State.endRun (s : State) (t : Task) : State :=
  if t.message then
    let c := s.core t.core
    s.setCore t.core { c with consumed := c.consumed ++ [(t.sender, t.transit, t.qwait, interval t.placed s.stamp)] }
  else s

/-- What EXIT releases (R249): streams, ports, rank and slot go with the context; mailbox bindings and memberships are given up,
halters drop, and jobs held for it are cancelled. -/
def State.release (s : State) (tid : Tid) : State :=
  match s.findTask tid with
  | none => s
  | some t =>
    let s1 := (s.leaveAll tid).settleHeld tid false
    let s2 : State := { s1 with mailboxes := s1.mailboxes.filter (·.tid != tid) }
    ((s2.dropHalters tid).endRun t).dropTask tid

/-- EXIT (R249); it waits while one of its leaves would have to wait. DEDUCED: assumption 43. -/
def execExit (o : Ops) (s : State) : Host.Outcome State Fault Refusal :=
  s.run (.exit o) (if s.delivering s.task.tid || !s.mayLeave s.task then .error (.wait .retry) else .ok (s.release s.task.tid))

/-- EXIT.dump (R249, R246): kind 16, EPC the EXIT.dump. -/
def execExitDump (o : Ops) (s : State) : Host.Outcome State Fault Refusal :=
  s.run (.exitDump o) (do
    s.needSup
    .ok (s.dumpTask s.task.tid { ecause := 16, epc := s.task.pc } false))

/-! ### Dumps (R246, R390) -/

/-- The lowest-numbered die of a paddock (R281). -/
def Paddock.firstDie (p : Paddock) : Nat := ((List.range 4).find? fun d => p.cfg.dies.any (·.toNat == d)).getD 0
/-- The ring header of a virtual function's fault queue: who reaches it, in the address space that the virtual function was
given (R270, R365, R380). DEDUCED: assumption 40. -/
def Paddock.vfWho (p : Paddock) (v : Nat) : Who :=
  { core := 2304 * p.firstDie, aspace := ((p.cfg.aspaces.find? fun e => e.1.toNat == v).map (·.2)).getD 0, sup := true,
    tenant := p.cfg.tenant }

/-- RP of a virtual function's ring, if it can be read. -/
def State.ringRp (s : State) (p : Paddock) (v : Nat) : Option Nat :=
  let h := (p.vf v).header
  if h = 0 then none else (s.agentLoc (p.vfWho v) { r := true } h).map fun pa => s.mem.read (pa + 8) 8

/-- Is a dump slot free: no type 6 record that names it is still to be consumed (R246)? -/
def State.dumpFree (s : State) (p : Paddock) (slot : Nat) : Bool :=
  let rp := (s.ringRp p p.ownVf).getD 0
  (p.vf p.ownVf).dumps.all fun d => d.slot != slot || (match d.pos with | some k => decide (k < rp) | none => false)

/-- One 64-byte entry of a dump. DEDUCED: assumption 39. -/
def Dump.record (d : Dump) (tid : Tid) (count : Nat) : BitVec 512 :=
  (0 : Word) ++ BitVec.ofNat 64 count ++ d.info2 ++ d.info1 ++ d.info0 ++ d.epc ++ d.ecause ++ tid.setWidth 64

/-- The bytes of a dump slot: record, secondary entries, area image (R246). DEDUCED: assumption 39. DEDUCED: assumption 40. -/
def Task.dumpImage (t : Task) (d : Dump) : Nat :=
  (d.record t.tid (min t.faults 0xFFFF)).toNat +
    (t.secondary.mapIdx fun i e => (e.record t.tid 0).toNat * 2 ^ (512 * (i + 1))).foldl (· + ·) 0 + t.area .dumped * 2 ^ (8 * 0x200)

/-! ### Traps -/

/-- TRAP_ENTRY (R239): the executing task, while it runs, takes a trap. -/
def execTrapEntry (t : Trap) (s : State) : Host.Outcome State Fault Refusal :=
  .next (if s.task.cstate = .running then s.trap t else s)

/-- A value of `n` words that nothing defines (R240). -/
def undefinedBits (free n : Nat) : Nat := packElems 64 ((List.range n).map fun i => (Config.dataErrorValue (free + i)).toNat)
/-- What an erring access leaves in its destination (R240): no defined value. DEDUCED: assumption 22. -/
def State.spoil (s : State) (t : Task) : DataDest → State
  | .none => s
  | .reg n => s.modTask t.tid fun t => t.wr n (Config.dataErrorValue s.free)
  | .group base k => s.modTask t.tid fun t => (List.range k).foldl (fun t i =>
      t.wrV (base.toNat + i) { t.rdV (base.toNat + i) with bits := BitVec.ofNat 128 (undefinedBits (s.free + 2 * i) 2) }) t
  | .tile j => match t.window j.toNat with
    | none => s
    | some p =>
      let x := s.tileAt t.cluster p
      s.setTile t.cluster p { Tile.make x.tag (BitVec.ofNat 16384 (undefinedBits s.free 256)) (BitVec.ofNat 1024 (undefinedBits (s.free + 256) 16)) with
        loading := x.loading }

/-- DATA_ERROR (R240): imprecise and fatal, at the boundary the task stands at; the destination holds no defined value.
DEDUCED: assumption 22. -/
def execDataError (tid : BitVec 48) (dest : DataDest) (pc pa : Word) (s : State) : Host.Outcome State Fault Refusal :=
  .next (match s.findTask tid with
    | none => s
    | some t =>
      if t.cstate = .free then s else (s.spoil t dest).dataFault t pc pa)

/-- TRAP (R252): EPC is the next instruction. -/
def execTrap (o : Ops) (s : State) : Host.Outcome State Fault Refusal :=
  .next (s.trapAt { kind := 12, info0 := (o.imm.setWidth 13).signExtend 64 } (s.task.pc + BitVec.ofNat 64 o.len.bytes))

/-- ERET (R253). -/
def execEret (o : Ops) (s : State) : Host.Outcome State Fault Refusal :=
  s.run (.eret o) (do
    s.needSup
    .ok s.eret)

/-! ### SPAWN (R248) -/

/-- A spawn record. -/
structure SpawnRecord where
  pc : Word
  args : List Word
  sp : Word
  core : Nat
  self : Bool
  sup : Bool
  ctxa : Word
  twin : Word
deriving DecidableEq, Repr

def spawnRecord (r : BitVec 512) : SpawnRecord where
  pc := r.extractLsb' 0 64
  args := [r.extractLsb' 64 64, r.extractLsb' 128 64, r.extractLsb' 192 64]
  sp := r.extractLsb' 256 64
  core := (r.extractLsb' 320 14).toNat
  self := r.getLsbD 380
  sup := r.getLsbD 381
  ctxa := r.extractLsb' 384 64
  twin := r.extractLsb' 448 64

/-- The core that a record names, seen from an issuer's core. -/
def SpawnRecord.target (r : SpawnRecord) (own : Nat) : Nat := if r.self then own else r.core
/-- Step 3 of R248: a TWIN or SUP that the issuer may not give. -/
def SpawnRecord.allowed (r : SpawnRecord) (sup : Bool) : Bool := sup || (r.twin == 0 && !r.sup)
/-- Step 4 of R248. -/
def State.recordLegal (s : State) (r : SpawnRecord) (tenant : BitVec 12) : Bool :=
  (r.self || (match s.paddock tenant with | some p => p.hasCore r.core | none => false)) && r.pc.toNat % 4 == 0 && r.ctxa.toNat % 64 == 0

/-- The next TID of a paddock (R233). DEDUCED: assumption 65. -/
def Paddock.tid (p : Paddock) : Tid := p.cfg.tenant ++ p.nextTid
/-- A TID has been assigned; the number wraps past 0. DEDUCED: assumption 65. -/
def State.useTid (s : State) (tenant : BitVec 12) : State :=
  s.modPaddock tenant fun p => { p with nextTid := if p.nextTid + 1 = 0 then 1 else p.nextTid + 1 }

/-- Bits of ASPACE that are no reserved field (R319). -/
def aspaceMask : Word := 0xFFF0007FFFFFF001
/-- A new task (R248): its registers are zero but for the ones given; SEED by R38. DEDUCED: assumption 65. -/
def freshTask (tid : Tid) (pc stat tvec ctxa aspace twin kcur : Word) (regs : List (BitVec 5 × Word)) : Task :=
  regs.foldl (fun t r => t.wr r.1 r.2)
    { tid := tid, pc := pc, stat := stat, tvec := tvec &&& ~~~(2 : Word), ctxa := ctxa, aspace := aspace &&& aspaceMask, twin := twin &&& twinMask, kcur := kcur,
      seed := 0x9E3779B97F4A7C15 ^^^ tid.setWidth 64 }

/-- The registers g1 to g3 and g30 of a spawned task. -/
def SpawnRecord.regs (r : SpawnRecord) : List (BitVec 5 × Word) :=
  [(1, r.args.getD 0 0), (2, r.args.getD 1 0), (3, r.args.getD 2 0), (30, r.sp)]

/-- SPAWN (R248). -/
def execSpawn (o : Ops) (s : State) : Host.Outcome State Fault Refusal :=
  s.run (.spawn o) (do
    let a ← s.srcA o
    let v ← s.load {} a 64 64
    let r := spawnRecord (BitVec.ofNat 512 v)
    let t := s.task
    need (r.allowed t.sup) Stop.privilege
    need (s.recordLegal r t.tenant) Stop.illegalOperand
    let core := r.target t.core
    need (s.linked (core / 2304) && s.hasRoom core) (.wait .retry)
    match s.paddock t.tenant with
    | none => .error Stop.illegalOperand
    | some p =>
      let u := freshTask p.tid r.pc (if r.sup then 1 else 0) t.tvec r.ctxa t.aspace r.twin 0 r.regs
      ((s.useTid t.tenant).enrol u core).complete o (p.tid.setWidth 64))

/-! ### YIELD (R250) -/

/-- The tasks that a YIELD waits for, those of a list that are still running on the core. -/
def State.yieldPeers (s : State) (ps : List Tid) : List Tid :=
  ps.filter fun p => s.others.any fun t => t.tid == p && t.cstate == .running && t.core == s.task.core
/-- YIELD with a = 0. DEDUCED: assumption 43. -/
def State.yieldZero (s : State) (o : Ops) : Except Stop State :=
  let ps := match s.task.wait with
    | .yield ps => s.yieldPeers ps
    | _ => s.yieldPeers (s.others.map (·.tid))
  if ps.isEmpty then .ok ((s.take o).advance o) else .error (.wait (.yield ps))

/-- YIELD (R250). -/
def execYield (o : Ops) (s : State) : Host.Outcome State Fault Refusal :=
  s.run (.yield o) (do
    match s.task.wait with
    | .count u => if u ≤ s.clk then .ok ((s.take o).advance o) else .error (.wait (.count u))
    | _ =>
      let n ← s.srcA o
      if n = 0 then s.yieldZero o else .error (.wait (.count (s.clk + min n.toNat 65535))))

/-- YIELD.swap (R250): with contexts in the ready queue the task is saved to its tail, and its slot takes the head.
A port that a names is neither waited for nor read, since a is ignored. While the save would have to wait, so does the instruction.
DEDUCED: assumption 38. -/
def execYieldSwap (o : Ops) (s : State) : Host.Outcome State Fault Refusal :=
  let core := s.task.core
  let tid := s.task.tid
  let s1 := ((s.advance o).haltNow).saveTask tid .ready core
  if (s.core core).ready.isEmpty then s.run (.yieldSwap o) (s.yieldZero { o with x := { o.x with pa := false } })
  else if s.task.dataErr.isSome then .next s1
  else if s1.settled tid = false then s.run (.yieldSwap o) (.error (.wait .retry))
  else
    let c := s1.core core
    .next ((s1.setCore core { c with ready := c.ready ++ [tid] }).takeReady core 9)

/-- YIELD_COUNT_EXPIRY (R250). -/
def execYieldCountExpiry (tid : BitVec 48) (s : State) : Host.Outcome State Fault Refusal :=
  .next (s.modTask tid fun t => match t.wait with
    | .count u => if t.cstate = .waiting ∧ u ≤ s.clk then { t with cstate := .running } else t
    | _ => t)

/-! ### TID (R251) -/

/-- TID (R251). -/
def execTid (o : Ops) (s : State) : Host.Outcome State Fault Refusal := s.run (.tid o) (s.complete o (s.task.tid.setWidth 64))
/-- TID.loc (R251). -/
def execTidLoc (o : Ops) (s : State) : Host.Outcome State Fault Refusal :=
  s.run (.tidLoc o) (s.complete o (BitVec.ofNat 64 (s.task.core * 4 + s.task.slot)))

/-! ### WFE (R255, R318) -/

/-- WFE (R255): arms the monitor, then reads the word; a read that finds a data error returns at once. DEDUCED: assumption 22. -/
def execWfe (o : Ops) (s : State) : Host.Outcome State Fault Refusal :=
  s.run (.wfe o) (do
    match s.task.wait with
    | .wfe l c fired r =>
      if r ≠ 0 then (s.acquire o).complete o (r.setWidth 64)
      else if fired then (s.acquire o).complete o 1
      else if c + 65536 ≤ s.clk then (s.acquire o).complete o 2
      else .error (.wait (.wfe l c fired r))
    | _ =>
      let va ← s.srcA o
      let y ← s.srcB o
      need (va.toNat % 8 == 0) (Stop.alignment va)
      let l ← s.access { r := true, home := true } va
      s.notHaltered l
      match l with
      | .scratch _ => .error (Stop.permission va)
      | .phys pa _ =>
        if s.poisoned pa 8 = false ∧ BitVec.ofNat 64 (s.word pa) = y then .error (.wait (.wfe (lineOf pa) s.clk false 0))
        else ((s.ctrError va pa).acquire o).complete o 0)

/-- WFE_WAKE (R255): a write to the line has performed since the arm. -/
def execWfeWake (tid : BitVec 48) (s : State) : Host.Outcome State Fault Refusal :=
  .next (s.modTask tid fun t => match t.wait with
    | .wfe l c true _ => if t.cstate = .waiting then { t with cstate := .running, wait := .wfe l c true 1 } else t
    | _ => t)
/-- WFE_TIMEOUT (R255): 65,536 clks without a write. -/
def execWfeTimeout (tid : BitVec 48) (s : State) : Host.Outcome State Fault Refusal :=
  .next (s.modTask tid fun t => match t.wait with
    | .wfe l c false _ =>
      if t.cstate = .waiting ∧ c + 65536 ≤ s.clk then { t with cstate := .running, wait := .wfe l c false 2 } else t
    | _ => t)

/-! ### MIGR (R256) -/

/-- Is a core of the paddock named? -/
def State.ownCore (s : State) (tenant : BitVec 12) (core : Nat) : Bool :=
  match s.paddock tenant with | some p => p.hasCore core | none => false

/-- Take a context out of the ready queue it lies in: it is pre-empted. -/
def State.unready (s : State) (tid : Tid) : State :=
  let s1 : State := { s with cores := smapMap {} s.cores fun _ c => { c with ready := c.ready.filter (· != tid) } }
  (s1.modTask tid fun t => if t.cstate = CState.ready then { t with cstate := CState.preempted } else t).reword tid fun w =>
    readyWord .preempted (w.extractLsb' 0 14).toNat w

/-- Halt and save a task that is resident, take one that is ready from its queue (R256). DEDUCED: assumption 38. -/
def State.fetchOut (s : State) (t : Task) (target : Nat) : State :=
  if t.cstate = .ready then s.unready t.tid
  else if t.cstate = .preempted then s
  else (s.haltTask t.tid).saveTask t.tid .preempted target

/-- CSTATE as the header gives it (R256): a saved context's header may have been rewritten (R234). DEDUCED: assumption 38. -/
def State.headerState (s : State) (t : Task) : Nat :=
  if t.saved.isSome && t.cstate != .dumped then ((s.readArea t).word2.extractLsb' 16 3).toNat else t.cstate.code

/-- The core of a restore: the one that a rewritten header word 3 names, else the one asked for (R256). -/
def restoreTarget (t : Task) (a : AreaRead) (core : Nat) : Nat :=
  if a.word3 = BitVec.ofNat 64 t.target then core else (a.word3.extractLsb' 0 14).toNat

/-- Restore a pre-empted context for an issuer (R256): 0 where it is restored. -/
def State.restoreFor (s : State) (tid : Tid) (core : Nat) : Except Stop State :=
  match s.findTask tid with
  | none => .ok s
  | some t =>
    let k := restoreTarget t (s.readArea t) core
    if s.ownCore t.tenant k then
      if s.linked (k / 2304) = false then .error (.wait .retry) else
      match s.restore t k with
      | .refused => .error Stop.illegalOperand
      | .full => .error (.wait .retry)
      | .done s1 => .ok s1
    else .error Stop.illegalOperand

/-- Does the context area of a task lie at an address of the executing task's space: at the same physical address, or, where the
hardware cannot reach it, at the same address of the same space? -/
def State.areaAt (s : State) (a : Word) (t : Task) : Bool := s.sameArea { s.task with ctxa := a } t

/-- MIGR (R256); it waits while a save that it makes would have to wait. DEDUCED: assumption 38. -/
def execMigr (o : Ops) (s : State) : Host.Outcome State Fault Refusal :=
  match (do
    s.needSup
    let a ← s.srcA o
    let b ← s.srcB o
    let only := b == BitVec.allOnes 64
    need (a.toNat % 64 == 0 && (only || s.ownCore s.task.tenant b.toNat)) Stop.illegalOperand
    .ok (a, b.toNat, only) : Except Stop (Word × Nat × Bool)) with
  | .error e => s.run (.migr o) (.error e)
  | .ok (a, core, only) =>
    if s.areaAt a s.task then
      s.run (.migr o) (do
        need (only || s.hasRoom core || core == s.task.core) (.wait .retry)
        let s1 ← s.complete o 0
        let tid := s1.task.tid
        let s2 := s1.haltNow.saveTask tid .preempted (if only then s.task.core else core)
        if s.task.dataErr.isSome then .ok s2 else
        need (s2.settled tid) (.wait .retry)
        if only then .ok s2 else s2.restoreFor tid core)
    else match s.others.find? (fun t => s.areaAt a t && t.tenant == s.task.tenant && t.cstate != .free) with
    | none => s.run (.migr o) (s.complete o 1)
    | some t =>
      let cs := s.headerState t
      if cs = 0 ∨ cs = 7 then s.run (.migr o) (s.complete o 1)
      else if cs = 6 ∨ t.cstate = .migrating then s.run (.migr o) (s.complete o 2)
      else
        let s1 := s.fetchOut t (if only then t.core else core)
        if s.linked (t.core / 2304) = false ∨ s1.settled t.tid = false then s.run (.migr o) (.error (.wait .retry)) else
        s1.run (.migr o) (do
          -- a data error that was due has come first (R239)
          if (s1.findTask t.tid).any (·.cstate == .dumped) then s1.complete o 1 else
          let s2 ← if only then .ok s1 else s1.restoreFor t.tid core
          s2.complete o 0)

end Sys2Proof.Machine
end

