-- ==== Sys2Proof/Machine/Queue.lean ====
section
/-! DEFINITION. Queues (R257 to R270): the arrival of port words and the refill of slot queues, mailboxes and their
activations, rings, and the fault queue of a virtual function. -/

namespace Sys2Proof.Machine

open Sys2Proof

/-- An event that cannot happen yet, or that fails, leaves the state as it is. -/
def State.whenOk (s : State) (r : Except Stop State) : State := match r with | .ok t => t | .error _ => s

/-! ### Ports (R261, R262) -/

/-- PORT_WORD_SEND (R261): the executing task's word leaves; a missing binding or rank entry traps, and a word that finds no
room stays unsent. -/
def execPortWordSend (n : BitVec 2) (v : Word) (s : State) : Host.Outcome State Fault Refusal :=
  .next (if s.task.cstate = .running then
      match s.send n v with
      | .ok t => t
      | .error (.trap t) => s.trap t
      | .error _ => s
    else s)

/-- PORT_WORD_ARRIVAL (R261): a full buffer does not accept the word. -/
def execPortWordArrival (core : Nat) (w : PortWord) (s : State) : Host.Outcome State Fault Refusal :=
  .next ((s.arrive core w).getD s)

/-- Does an earlier word of the list go to the same port of the same rank? -/
def queuedBefore (l : List QWord) (w : QWord) : Bool :=
  l.any fun x => x.word.tenant == w.word.tenant && x.word.rank == w.word.rank && x.word.port == w.word.port

/-- One word of an inbound buffer (R262): into its slot queue, kept in order while its rank is in transit (R244), or discarded where
no task holds its rank and the record finds room (R258).
DEDUCED: assumption 44. -/
def State.refillOne (core : Nat) (r : State × List QWord) (w : QWord) : State × List QWord :=
  let s := r.1
  if s.tasks.any (fun t => t.movingFrom core && t.takes w) then (s, r.2 ++ [w])
  else match s.tasks.find? (·.holds core w.word.tenant w.word.rank) with
  | none =>
    if s.postRoom w.word.tenant then
      (s.postOwn w.word.tenant 3 0 0 0 0 (w.word.rank.setWidth 64) (w.word.src.setWidth 64), r.2)
    else (s, r.2 ++ [w])
  | some t =>
    if (t.port w.word.port).queue.length < 4 ∧ queuedBefore r.2 w = false then
      (s.modTask t.tid fun t => t.setPort w.word.port
        { (t.port w.word.port) with queue := (t.port w.word.port).queue ++ [w] }, r.2)
    else (s, r.2 ++ [w])
/-- The interface refills the slot queues of a core. -/
def State.refill (s : State) (core : Nat) : State :=
  let r := (s.core core).inbound.foldl (State.refillOne core) (s, [])
  r.1.setCore core { (r.1.core core) with inbound := r.2 }
/-- SLOT_QUEUE_REFILL (R262). -/
def execSlotQueueRefill (core : Nat) (s : State) : Host.Outcome State Fault Refusal := .next (s.refill core)

/-! ### Mailboxes (R265 to R267) -/

/-- The binding of a mailbox line. -/
def State.mailbox (s : State) (pa : Nat) : Option Mailbox := s.mailboxes.find? (·.pa == pa)
/-- Bindings at the home slice of an address. -/
def State.bindings (s : State) (pa : Nat) : List Mailbox := s.mailboxes.filter fun m => s.roomAt m.pa pa
/-- A free index of the home slice of an address (R265: a slice holds 8 bindings). DESIGN CHOICE: assumption 19. -/
def State.freeBinding (s : State) (pa : Nat) : Option Nat :=
  if (s.bindings pa).length < 8 then s.choose ((List.range 8).filter fun n => !((s.bindings pa).any fun m => m.index.toNat == n)) else none

/-- A record whose SELF names the binder's core, and which therefore names that core for every activation.
DEDUCED: assumption 47. -/
def fixCore (r : BitVec 512) (core : Nat) : BitVec 512 :=
  if r.getLsbD 380 then
    (r &&& ~~~((0x3FFF#14).setWidth 512 <<< 320) &&& ~~~((1#1).setWidth 512 <<< 380)) ||| ((BitVec.ofNat 14 core).setWidth 512 <<< 320)
  else r

/-- MBIND (R265). DEDUCED: assumption 47. -/
def execMbind (o : Ops) (s : State) : Host.Outcome State Fault Refusal :=
  s.run (.mbind o) (do
    let a ← s.srcA o
    let b ← s.srcB o
    need (a.toNat % 64 == 0) (Stop.alignment a)
    need (b.toNat % 64 == 0) (Stop.alignment b)
    let l ← s.access { r := true, home := true } a
    s.notHaltered l
    let v ← s.load {} b 64 64
    match l with
    | .scratch _ => .error (Stop.permission a)
    | .phys pa e =>
      let t := s.task
      let raw := BitVec.ofNat 512 v
      let r := spawnRecord raw
      need (dirPage e && r.allowed t.sup && s.recordLegal r t.tenant) Stop.illegalOperand
      need (s.mailbox pa).isNone Stop.illegalOperand
      match s.freeBinding pa with
      | none => .error (Stop.resource 2)
      | some n =>
        let m : Mailbox := { pa := pa, va := a, index := BitVec.ofNat 3 n, record := fixCore raw t.core, tid := t.tid, tvec := t.tvec,
                             aspace := t.aspace }
        { s with mailboxes := s.mailboxes ++ [m] }.complete o (BitVec.ofNat 64 n))

/-- MFREE (R265). DEDUCED: assumption 47. -/
def execMfree (o : Ops) (s : State) : Host.Outcome State Fault Refusal :=
  s.run (.mfree o) (do
    let a ← s.srcA o
    need (a.toNat % 64 == 0) (Stop.alignment a)
    let l ← s.access { r := true, home := true } a
    match l with
    | .scratch _ => .error (Stop.permission a)
    | .phys pa _ =>
      need (!((s.mailbox pa).any fun m => !m.pending.isEmpty)) (.wait .retry)
      .ok (({ s with mailboxes := s.mailboxes.filter (·.pa != pa) }.take o).advance o))

/-- The home captures a line that a triggering store has written (R266), whose turn it was; nothing where the line is not bound.
DEDUCED: assumption 47. -/
def State.capture (s : State) (pa : Nat) (w : Waiter) (x : Trigger) : State :=
  s.modMailbox pa fun m => { m with pending := m.pending ++ [x], waiters := m.waiters.filter (· != w) }

/-- SENDM (R267). DEDUCED: assumption 47. -/
def execSendm (o : Ops) (s : State) : Host.Outcome State Fault Refusal :=
  s.run (.sendm o) (do
    let a ← s.srcA o
    let b ← s.srcB o
    need (a.toNat % 64 == 0) (Stop.alignment a)
    let v ← s.load {} b 64 64
    let l ← s.access { w := true, home := true } a
    s.notHaltered l
    match l with
    | .scratch _ => .error (Stop.permission a)
    | .phys pa _ =>
      need (s.mailFree pa (.task s.task.tid)) (.wait (.send pa))
      let s1 ← s.storeWhole a l 64 v
      let s2 := s1.capture pa (.task s.task.tid) { line := BitVec.ofNat 512 v, stamp := s.stamp, arrival := s.stamp, src := some s.task.srcRank }
      .ok ((s2.take o).advance o))

/-- The eight words of a line, as registers g1 to g8. -/
def lineRegs (x : BitVec 512) : List (BitVec 5 × Word) :=
  (List.range 8).map fun n => (BitVec.ofNat 5 (n + 1), x.extractLsb' (64 * n) 64)

/-- Place the activation that waits in delivery at a mailbox (R266), as SPAWN places a task. DEDUCED: assumption 47. -/
def State.activate (s : State) (pa : Nat) : State :=
  match s.mailbox pa with
  | none => s
  | some m =>
    match m.pending with
    | [] => s
    | x :: rest =>
      let tenant := m.tid.extractLsb' 36 12
      let r := spawnRecord m.record
      if s.hasRoom r.core = false ∨ s.route tenant (s.homeDie pa) (r.core / 2304) = false then s
      else match s.paddock tenant with
      | none => s
      | some p =>
        let t := freshTask p.tid r.pc (if r.sup then 1 else 0) m.tvec r.ctxa m.aspace r.twin 0
          (lineRegs x.line ++ [(9, m.va), (30, r.sp)])
        let t := { t with message := x.src.isSome, placed := s.stamp, transit := interval x.stamp x.arrival,
                          qwait := interval x.arrival s.stamp, sender := x.src.getD 0xFFFFF }
        (((s.modMailbox pa fun m => { m with pending := rest }).useTid tenant).enrol t r.core).acquireAt r.core .p
/-- MAILBOX_ACTIVATION (R266). -/
def execMailboxActivation (pa : Nat) (s : State) : Host.Outcome State Fault Refusal := .next (s.activate pa)

/-! ### Ring instructions (R269) -/

/-- The header that RAWAIT or RREL names, checked as R269 says, with the count n. -/
def State.ringFor (s : State) (a : Word) (n : Word) : Except Stop Ring := do
  need (a.toNat % 64 == 0) (Stop.alignment a)
  let l ← s.access { r := true, w := true, home := true } a
  s.notHaltered l
  match l with
  | .scratch _ => .error (Stop.permission a)
  | .phys pa _ =>
    let r := s.ringAt pa
    need (!s.poisoned pa 64) (.data a pa)
    need (r.legal && decide (1 ≤ n.toNat) && decide (n.toNat ≤ r.nslot)) Stop.illegalOperand
    .ok r

/-- RAWAIT (R269): complete, or wait for a write to the header line. DEDUCED: assumption 48. -/
def State.rawait (s : State) (o : Ops) (ok : Ring → Nat → Bool) (f : Ring → Nat) : Except Stop State := do
  let a ← s.srcA o
  let n ← s.srcB o
  let r ← s.ringFor a n
  if ok r n.toNat then (s.acquire o).complete o (BitVec.ofNat 64 (f r)) else .error (.wait (.ring (lineOf r.pa) false))
/-- RAWAIT.prod (R269). -/
def execRawaitProd (o : Ops) (s : State) : Host.Outcome State Fault Refusal :=
  s.run (.rawaitProd o) (s.rawait o (fun r n => decide ((n : Int) ≤ (r.nslot : Int) - r.used)) Ring.wp)
/-- RAWAIT.cons (R269). -/
def execRawaitCons (o : Ops) (s : State) : Host.Outcome State Fault Refusal :=
  s.run (.rawaitCons o) (s.rawait o (fun r n => decide ((n : Int) ≤ r.used)) Ring.rp)

/-- RREL.prod (R269). -/
def execRrelProd (o : Ops) (s : State) : Host.Outcome State Fault Refusal :=
  s.run (.rrelProd o) (do
    let a ← s.srcA o
    let n ← s.srcB o
    let r ← s.ringFor a n
    need (decide (r.used + n.toNat ≤ r.nslot)) Stop.illegalOperand
    let s1 ← s.storeLoc a (.phys r.pa 0) 8 (r.wp + n.toNat)
    .ok ((s1.take o).advance o))

/-- RREL.cons (R269): the counter's access is checked before the store, which the add follows. DEDUCED: assumption 48. -/
def execRrelCons (o : Ops) (s : State) : Host.Outcome State Fault Refusal :=
  s.run (.rrelCons o) (do
    let a ← s.srcA o
    let n ← s.srcB o
    let r ← s.ringFor a n
    need (decide ((n.toNat : Int) ≤ r.used)) Stop.illegalOperand
    let ctr ← if r.freec = 0 then .ok none else (s.counterLoc { w := true } r.freec 8).map some
    need (ctr.all fun pa => !s.addStalls pa s.task.tenant n.toNat) (.wait .retry)
    let s1 ← s.storeLoc (a + 8) (.phys (r.pa + 8) 0) 8 (r.rp + n.toNat)
    let s2 := match ctr with
      | none => s1
      | some pa => s1.agentAdd pa r.freec s.task.tid s.task.tenant n.toNat
    .ok ((s2.take o).advance o))

/-- RING_MONITOR_WAKE (R269): a write to the header line ends the wait, and RAWAIT reads again. -/
def execRingMonitorWake (tid : BitVec 48) (s : State) : Host.Outcome State Fault Refusal :=
  .next (s.modTask tid fun t => match t.wait with
    | .ring _ true => if t.cstate = .waiting then { t with cstate := .running } else t
    | _ => t)

/-! ### Fault queues (R270, R365) -/

/-- Does the host link carry traffic (R357)? DEDUCED: assumption 48. -/
def State.hostLinkUp (s : State) : Bool :=
  match s.links[4]? with | some l => l.state == .up || l.state == .degraded | none => false

/-- Write a 64-byte record into the ring of a producer that is the device (R270, R369): none while the ring is full or cannot be
reached; else the state and the slot's position. -/
def State.ringPut (s : State) (w : Who) (header : Word) (x : BitVec 512) : Option (State × Nat) :=
  if header = 0 ∨ header.toNat % 64 ≠ 0 then none
  else match s.agentLoc w { r := true, w := true } header with
  | none => none
  | some pa =>
    let r := s.ringAt pa
    if (r.nslot : Int) ≤ r.used then none
    else match s.agentLoc w { w := true } (r.base + BitVec.ofNat 64 (r.wp % r.nslot * 64)) with
    | none => none
    | some q => some ((s.poke q 64 x.toNat).poke pa 8 (r.wp + 1), r.wp)

/-- FAULT_RECORD_POST (R270): the oldest buffered record of a virtual function goes to its ring. -/
def State.flushRecord (s : State) (tenant : BitVec 12) (v : Nat) : State :=
  match s.paddock tenant with
  | none => s
  | some p =>
    match (p.vf v).buffer with
    | [] => s
    | x :: rest =>
      if s.hostLinkUp = false then s
      else match s.ringPut (p.vfWho v) (p.vf v).header x with
      | none => s
      | some (s1, pos) =>
        s1.modVf tenant v fun f =>
          { f with buffer := rest
                   dumps := f.dumps.map fun d =>
                     if x.extractLsb' 0 8 = 6 ∧ d.pos = none ∧ d.seq = x.extractLsb' 32 32 then { d with pos := some pos } else d }
def execFaultRecordPost (tenant : BitVec 12) (vf : BitVec 6) (s : State) : Host.Outcome State Fault Refusal :=
  .next (s.flushRecord tenant vf.toNat)

end Sys2Proof.Machine
end

