-- ==== Sys2Proof/Machine/Copy.lean ====
section
/-! DEFINITION. The copy unit (R271 to R275): CPY and CPYM, the window of a command element by element, its completion, and
the reports of its waits. -/

namespace Sys2Proof.Machine

open Sys2Proof

/-! ### The descriptor (R271, R272) -/

def Copy.nat (c : Copy) (lo n : Nat) : Nat := (c.desc.extractLsb' lo n).toNat
def Copy.word (c : Copy) (lo : Nat) : Word := c.desc.extractLsb' lo 64
def Copy.sfmt (c : Copy) : Fmt := (Fmt.ofCode (c.nat 420 5)).getD .raw
def Copy.dfmt (c : Copy) : Fmt := (Fmt.ofCode (c.nat 425 5)).getD .raw
def Copy.rm (c : Copy) : Rm := (Rm.ofCode (c.nat 430 3)).getD .rne
def Copy.ab (c : Copy) : Bool := c.desc.getLsbD 433
def Copy.alpha (c : Copy) : FNum := (ffmt .fp32).decode (c.nat 448 32)
def Copy.beta (c : Copy) : FNum := (ffmt .fp32).decode (c.nat 480 32)
def Copy.orgr (c : Copy) : Int := (c.desc.extractLsb' 256 32).toInt
def Copy.orgc (c : Copy) : Int := (c.desc.extractLsb' 288 32).toInt
def Copy.nrow (c : Copy) : Nat := c.nat 224 32
def Copy.ncol (c : Copy) : Nat := c.nat 192 32
def Copy.tr (c : Copy) : Nat := c.nat 320 32
def Copy.tc (c : Copy) : Nat := c.nat 352 32
def Copy.spitch (c : Copy) : Nat := c.nat 128 32
def Copy.dpitch (c : Copy) : Nat := c.nat 160 32
def Copy.cmpl (c : Copy) : Word := c.word 512
def Copy.mbox (c : Copy) : Word := c.word 576
def Copy.tenant (c : Copy) : BitVec 12 := c.tid.extractLsb' 36 12
def Copy.who (c : Copy) : Who := { core := c.core, aspace := c.aspace, sup := c.sup, tenant := c.tenant, granted := c.grant }
/-- Bytes of a whole window of the destination, rounded up (R274). -/
def Copy.windowBytes (c : Copy) : Nat := (c.nrow * c.ncol * fmtBits c.dfmt + 7) / 8

/-- A format that a copy takes (R272). -/
def copyFmt (code : Nat) : Bool := match Fmt.ofCode code with | some f => f != .raw && f != .e2m1 | none => false

/-- An integer format (R22). -/
def copyInt (f : Fmt) : Bool := f.isInt || f == .i4 || f == .n4
/-- The cases of R272 that lie in the descriptor alone; DST is ignored by CPYM. -/
def Copy.legal (c : Copy) : Bool :=
  copyFmt (c.nat 420 5) && copyFmt (c.nat 425 5) && decide (c.nat 430 3 < 4) && decide (c.nat 434 3 ≤ 3) &&
  (!(c.sfmt.isBlock || c.dfmt.isBlock) || (c.ncol % 32 == 0 && c.orgc % 32 == 0)) &&
  c.spitch % 4 == 0 && c.dpitch % 4 == 0 && (fmtBits c.sfmt != 4 || c.orgc % 2 == 0) &&
  !(c.ab && (copyInt c.sfmt || copyInt c.dfmt)) &&
  decide (1 ≤ c.nrow) && decide (c.nrow ≤ 65536) && decide (1 ≤ c.ncol) && decide (c.ncol ≤ 65536) &&
  c.cmpl.toNat % 8 == 0 && c.mbox.toNat % 64 == 0 &&
  decide ((c.word 0).toNat < 2 ^ 48) && (c.multi || decide ((c.word 64).toNat < 2 ^ 48))

/-! ### Issue (R272) -/

/-- The 64-bit words at an address, one plain load each (a list of receivers). -/
def State.loadWords (s : State) (a : Word) : Nat → Except Stop (List Word)
  | 0 => .ok []
  | n + 1 => do
    let v ← s.load {} a 8 8
    let l ← State.loadWords s (a + 8) n
    .ok (BitVec.ofNat 64 v :: l)

/-- A completion counter's page at issue (R272 steps 2 and 3): is it a counter page? DEDUCED: assumption 37. -/
def State.cmplCheck (s : State) (va : Word) : Except Stop Bool :=
  if va = 0 then .ok true
  else match s.access { w := true, ctr := .allow } va with
  | .error e => .error e
  | .ok (.scratch _) => .error (Stop.permission va)
  | .ok (.phys _ e) => .ok (pteCtr e)
/-- A completion mailbox at issue. DEDUCED: assumption 37. -/
def State.mboxCheck (s : State) (va : Word) : Except Stop Unit :=
  if va = 0 then .ok () else (s.access { w := true, home := true } va).map fun _ => ()

/-- The command of a CPY or CPYM of the executing task, checked as R272 orders. -/
def State.copyCommand (s : State) (a : Word) (multi : Bool) : Except Stop Copy := do
  need (a.toNat % 64 == 0) (Stop.alignment a)
  let lo ← s.load {} a 64 64
  let hi ← s.load {} (a + 64) 64 64
  let desc : BitVec 1024 := BitVec.ofNat 1024 (lo + 2 ^ 512 * hi)
  let rcv ← if multi then s.loadWords (desc.extractLsb' 832 64) ((desc.extractLsb' 440 3).toNat + 1) else .ok []
  let t := s.task
  let c : Copy := { desc := desc, descVa := a, multi := multi, tid := t.tid, aspace := t.aspace, core := t.core, sup := t.sup,
                    rcv := rcv, codes := rcv.map fun _ => 0 }
  let ctr ← s.cmplCheck c.cmpl
  s.mboxCheck c.mbox
  need (c.legal && ctr) Stop.illegalOperand
  .ok c

/-- CPY and CPYM join the queue of the task's copy unit, which holds 16 commands (R272). -/
def State.kickCopy (s : State) (o : Ops) (multi : Bool) : Except Stop State := do
  let a ← s.srcA o
  let c ← s.copyCommand a multi
  let cl := s.cluster s.task.cluster
  need (decide (cl.copies.length < 16)) (.wait .retry)
  -- what the kick leaves unordered, the command may see old (R162, R166)
  let old := if o.x.ord.isRel && o.x.sc != .c then [] else (s.recent.filter (·.1 == s.task.tid)).map (·.2)
  let c := { c with since := s.clk, old := old, seed := s.free, windows := if multi then [] else [{ rcv := 0, base := c.word 64 }] }
  .ok (((s.setCluster s.task.cluster { cl with copies := cl.copies ++ [c] }).take o).advance o)
/-- CPY (R272). -/
def execCpy (o : Ops) (s : State) : Host.Outcome State Fault Refusal := s.run (.cpy o) (s.kickCopy o false)
/-- CPYM (R275). -/
def execCpym (o : Ops) (s : State) : Host.Outcome State Fault Refusal := s.run (.cpym o) (s.kickCopy o true)

/-! ### The accesses of the unit -/

/-- What stops a command: a fault with its code of R274 and address, a demand-paging fault, a wait, with where a home holds the request
(R345), or a wait for a code-dirty mark on a line. -/
inductive CopyStop where
  | fault (code : BitVec 8) (va : Word)
  | park (va : Word) (level : Nat)
  | wait (held : Option Grant)
  | mark (line : Nat)
deriving DecidableEq, Repr

/-- The location of an access of the unit. -/
def State.copyLoc (s : State) (w : Who) (n : Want) (va : Word) (align : Nat) : Except CopyStop Loc :=
  if va.toNat % align ≠ 0 then .error (.fault 4 va)
  else match s.check w n va with
  | .ok (.scratch k) => .ok (.scratch k)
  | .ok (.phys pa e) => if s.halters.any (·.line == lineOf pa) then .error (.wait w.granted) else .ok (.phys pa e)
  | .error (.translation _) => .error (.fault 1 va)
  | .error (.paging level) => .error (.park va level)
  | .error .permission => .error (.fault 2 va)
  | .error .stack => .error (.fault 3 va)
  | .error b => .error (.wait (w.keep s.clk b))

/-- What the command reads at a location within one aligned 8-byte word: the bytes as they stand, or as they were before the first of the
kicking task's stores, unordered before the read, that it does not see (R166). DESIGN CHOICE: assumption 5. -/
def State.seen (s : State) (c : Copy) (l : Loc) (n : Nat) : Nat :=
  let at_ := match l with | .scratch k => k | .phys pa _ => pa
  match c.old.find? (fun x => (l.words n).contains x.key && (x.late || Config.oldWord c.seed x.event)) with
  | some x => x.value / 2 ^ (8 * (at_ % 8)) % 2 ^ (8 * n)
  | none => s.readLoc l n
/-- An element access of the command's body that reads. -/
def State.copyRead (s : State) (c : Copy) (va : Word) (n : Nat) : Except CopyStop Nat :=
  (s.copyLoc c.who { r := true } va n).map fun l => s.seen c l n

/-- Write to a checked location as a groom: a code store marks for the kicking task first (R327, R328), and a store to a SINV page is
written through (R146). -/
def State.groomStore (s : State) (tid : Tid) (die : Nat) (l : Loc) (n v : Nat) : Except CopyStop State :=
  match l with
  | .scratch k => .ok { s with scratch := s.scratch.write k n v }
  | .phys pa e =>
    match s.markRange tid die pa n with
    | none => .error (.mark (lineOf pa))
    | some s1 => .ok ((s1.writeThrough die pa n e).poke pa n v)
def State.copyWrite (s : State) (c : Copy) (va : Word) (n v : Nat) : Except CopyStop State := do
  let l ← s.copyLoc c.who { w := true } va n
  s.groomStore c.tid c.who.die l n v

/-! ### One element, or one block (R273) -/

/-- Read the element of a format at byte address `va`; the low half of the byte holds the even columns (R22). -/
def State.copyElem (s : State) (c : Copy) (f : Fmt) (va : Word) (col : Nat) : Except CopyStop Nat :=
  if fmtBits f = 4 then (s.copyRead c va 1).map fun x => if col % 2 = 0 then x % 16 else x / 16 else s.copyRead c va (fmtBits f / 8)

/-- Does tensor element (r, c) lie inside the tensor? -/
def Copy.inside (c : Copy) (r k : Int) : Bool :=
  (c.tr == 0 && c.tc == 0) || (decide (0 ≤ r) && decide (r < c.tr) && decide (0 ≤ k) && decide (k < c.tc))

/-- A number of bytes from a base (R273), as an address. -/
def copyAddr (base : Word) (off : Int) : Word := BitVec.ofInt 64 ((base.toNat : Int) + off)

/-- Address of window element (i, j) in the source, and of its block's scale, which lies at one sixteenth of the offset of its codes
(DEDUCED, assumption 16). -/
def Copy.src (c : Copy) (i j : Nat) : Word := copyAddr (c.word 0) ((c.orgr + i) * c.spitch + (c.orgc + j) * fmtBits c.sfmt / 8)
def Copy.srcScale (c : Copy) (i j : Nat) : Word := copyAddr (c.word 640) ((c.orgr + i) * (c.spitch / 16 : Nat) + (c.orgc + j) / 32)
/-- The source value of window element (i, j) as a number. DEDUCED: assumption 16. -/
def State.copySource (s : State) (c : Copy) (i j : Nat) : Except CopyStop FNum :=
  if c.inside (c.orgr + i) (c.orgc + j) = false then .ok (.fin false 0 0)
  else do
    let x ← s.copyElem c c.sfmt (c.src i j) ((c.orgc + j) % 2).toNat
    let sc ← if c.sfmt.isBlock then s.copyRead c (c.srcScale i j) 1 else .ok 0
    .ok (numOf c.sfmt (BitVec.ofNat 8 sc) x)

/-- Address of window element (i, j) in the destination, and of its block's scale. -/
def Copy.dst (c : Copy) (base : Word) (i j : Nat) : Word := base + BitVec.ofNat 64 (i * c.dpitch + j * fmtBits c.dfmt / 8)
/-- DEDUCED: assumption 16. -/
def Copy.dstScale (c : Copy) (i j : Nat) : Word := c.word 704 + BitVec.ofNat 64 (i * (c.dpitch / 16) + j / 32)

/-- The value y of window element (i, j) and whether it raises NV. -/
def State.copyValue (s : State) (c : Copy) (base : Word) (i j : Nat) : Except CopyStop (FNum × Bool) := do
  let x ← s.copySource c i j
  if c.ab = false then .ok (x, false)
  else
    let p := mulNum c.alpha x
    if c.beta.isZero then .ok p
    else
      let old ← s.copyElem c c.dfmt (c.dst base i j) (j % 2)
      let sc ← if c.dfmt.isBlock then s.copyRead c (c.dstScale i j) 1 else .ok 0
      let q := mulNum c.beta (numOf c.dfmt (BitVec.ofNat 8 sc) old)
      let y := addNum p.1 q.1
      .ok (y.1, p.2 || q.2 || y.2)

/-- An exact integer of a number that holds one. -/
def FNum.whole (x : FNum) : Int := x.units 0

/-- The stored element of a format that is no block, and the flags (R273). -/
def Copy.encode (c : Copy) (y : FNum × Bool) : Nat × BitVec 6 :=
  if Fmt.isFp c.dfmt then
    let r := (ffmt c.dfmt).ofNum c.rm 0 y.1
    (r.1, r.2 ||| flagIf y.2 flagNV)
  else if copyInt c.sfmt then narrow c.dfmt true y.1.whole
  else toInt c.dfmt c.rm 0 y.1

/-- Store element (i, j), where the destination is no block. -/
def State.copyStore (s : State) (c : Copy) (base : Word) (i j v : Nat) : Except CopyStop State :=
  let va := c.dst base i j
  if fmtBits c.dfmt = 4 then do
    let l ← s.copyLoc c.who { w := true } va 1
    let old := s.readLoc l 1
    s.groomStore c.tid c.who.die l 1 (if j % 2 = 0 then old / 16 * 16 + v % 16 else old % 16 + 16 * (v % 16))
  else s.copyWrite c va (fmtBits c.dfmt / 8) v

/-- The values of the block of 32 columns from column j. DEDUCED: assumption 16. -/
def State.copyBlock (s : State) (c : Copy) (base : Word) (i j : Nat) : Nat → Except CopyStop (List (FNum × Bool))
  | 0 => .ok []
  | n + 1 => do
    let y ← s.copyValue c base i j
    let l ← State.copyBlock s c base i (j + 1) n
    .ok (y :: l)
/-- Store bytes one by one. -/
def State.copyBytes (s : State) (c : Copy) (va : Word) : List Nat → Except CopyStop State
  | [] => .ok s
  | x :: l => do
    let s1 ← s.copyWrite c va 1 x
    State.copyBytes s1 c (va + 1) l
/-- Pairs of 4-bit codes as bytes. -/
def pairCodes : List Nat → List Nat
  | a :: b :: l => (a % 16 + 16 * (b % 16)) :: pairCodes l
  | l => l

/-- Reads of the source, of a block's scale too, through an executable leaf have set the code bit of their pages (R327). -/
def State.copyNote (s : State) (c : Copy) (i j : Nat) : State :=
  let note (s : State) (va : Word) : State :=
    match s.check c.who { r := true } va with | .ok l => s.noteX c.who va l | .error _ => s
  if c.inside (c.orgr + i) (c.orgc + j) = false then s
  else if c.sfmt.isBlock then note (note s (c.src i j)) (c.srcScale i j) else note s (c.src i j)

/-- Move one step of a window, an element or a block of 32 columns, and go on to the next position. DEDUCED: assumption 37. -/
def State.copyStep (s : State) (c : Copy) (w : CopyWindow) : Except CopyStop (State × BitVec 6 × CopyWindow) := do
  let wide := if c.dfmt.isBlock then 32 else 1
  let r : State × BitVec 6 ←
    if c.dfmt.isBlock then do
      let ys ← s.copyBlock c w.base w.row w.col 32
      let b := toBlock c.dfmt (Config.copyBlockType s.free).toNat c.rm (List.replicate 32 0) (ys.map (·.1))
      let s1 ← s.copyBytes c (c.dst w.base w.row w.col) (pairCodes b.2.1)
      let s2 ← s1.copyWrite c (c.dstScale w.row w.col) 1 b.1.toNat
      .ok (s2, b.2.2 ||| flagIf (ys.any (·.2)) flagNV)
    else do
      let y ← s.copyValue c w.base w.row w.col
      let e := c.encode y
      let s1 ← s.copyStore c w.base w.row w.col e.1
      .ok (s1, e.2)
  let last := c.ncol ≤ w.col + wide
  let s1 := (List.range wide).foldl (fun s k => s.copyNote c w.row (w.col + k)) r.1
  .ok (s1, r.2, { w with bits := w.bits + wide * fmtBits c.dfmt, markWait := none, grant := none,
                          col := if last then 0 else w.col + wide, row := if last then w.row + 1 else w.row })

/-- Move the rest of a window, until it is done or stopped: the flags, the window, and what stops it. DEDUCED: assumption 37. -/
def State.copyRun (s : State) (c : Copy) (w : CopyWindow) : Nat → State × BitVec 6 × CopyWindow × Option CopyStop
  | 0 => (s, 0, w, none)
  | n + 1 =>
    if c.nrow ≤ w.row then (s, 0, w, none)
    else match s.copyStep { c with grant := w.grant } w with
    | .error e => (s, 0, w, some e)
    | .ok (s1, f, w1) => let r := State.copyRun s1 c w1 n; (r.1, f ||| r.2.1, r.2.2)

/-! ### Commands (R273 to R275) -/

/-- Command i of a cluster's unit. -/
def State.copyAt (s : State) (cluster i : Nat) : Option Copy := (s.cluster cluster).copies[i]?
def State.putCopy (s : State) (cluster i : Nat) (c : Copy) : State :=
  let cl := s.cluster cluster
  s.setCluster cluster { cl with copies := cl.copies.set i c }
/-- The window of a receiver, which it may have yet to open (R275). -/
def Copy.window (c : Copy) (r : Nat) : Option CopyWindow := c.windows.find? (·.rcv == r)
def Copy.setWindow (c : Copy) (w : CopyWindow) : Copy := { c with windows := c.windows.filter (·.rcv != w.rcv) ++ [w] }
/-- Bytes written so far, those of windows still open among them. -/
def Copy.written (c : Copy) : Nat := c.bytes + (c.windows.map fun w => (w.bits + 7) / 8).sum
/-- A type 2 record of a command (R334). -/
def State.copyRecord (s : State) (c : Copy) (code : BitVec 8) (va : Word) : State :=
  s.postOwn c.tenant 2 code c.tid va 0 c.descVa (BitVec.ofNat 64 c.written)
/-- Is a record needed that finds no room, so that the command waits (R258)? -/
def State.copyStalls (s : State) (c : Copy) : Bool := c.mbox == 0 && !s.postRoom c.tenant
/-- The window of a receiver is over. -/
def Copy.closeWindow (c : Copy) (r : Nat) : Copy :=
  match c.window r with
  | none => c
  | some w => { c with bytes := c.bytes + (w.bits + 7) / 8, windows := c.windows.filter (·.rcv != r) }
/-- A window waits for a mark, for a page, or for something else. -/
def State.copyWaits (s : State) (c : Copy) (w : CopyWindow) : CopyStop → State × CopyWindow
  | .park va level =>
    if s.pagingRoom c.tenant (c.aspace.extractLsb' 52 12) va = false then (s, w) else
    (s.pagingRecord c.tenant c.tid (c.aspace.extractLsb' 52 12) va level 4 0 [],
     { w with parked := some (va.toNat / 4096), filled := false, grant := none })
  | .mark line => (s, { w with markWait := keepWait w.markWait line s.clk })
  | .wait g => (s, { w with grant := g })
  | .fault _ _ => (s, w)

/-- Does a unit hold the add of a command to a counter of a stack in transit, and go on with nothing else (R307)? It is the first such
command. -/
def State.copyHolds (s : State) (cluster : Nat) : Option Nat :=
  (s.cluster cluster).copies.findIdx? fun c =>
    c.bodyDone && !c.added && c.cmpl != (0 : Word) && (match s.counterPa c.who c.cmpl with | .error b => b.waits | _ => false)
/-- May the unit of a cluster go on with a command: its clocks run (R21), and it holds no add of another? -/
def State.copyOn (s : State) (cluster i : Nat) : Bool := s.clocked cluster && (s.copyHolds cluster).all (· == i)

/-- COPY_COMMAND (R273): the window of a CPY. -/
def State.copyBody (s : State) (cluster i : Nat) : State :=
  match s.copyAt cluster i with
  | none => s
  | some c =>
    match c.window 0 with
    | none => s
    | some w =>
      if c.multi ∨ c.bodyDone = true ∨ w.parked.isSome = true ∨ s.copyOn cluster i = false then s
      else
        let r := s.copyRun c w (c.nrow * c.ncol)
        let c1 := { c with flags := c.flags ||| r.2.1 }.setWindow r.2.2.1
        match r.2.2.2 with
        | none => r.1.putCopy cluster i { c1.closeWindow 0 with bodyDone := true }
        | some (.fault code va) =>
          if r.1.copyStalls c then r.1.putCopy cluster i c1
          else (if c.mbox = 0 then r.1.copyRecord c1 code va else r.1).putCopy cluster i { c1.closeWindow 0 with bodyDone := true, code := code }
        | some e => let x := r.1.copyWaits c1 r.2.2.1 e; x.1.putCopy cluster i (c1.setWindow x.2)
def execCopyCommand (cluster : Nat) (i : Nat) (s : State) : Host.Outcome State Fault Refusal := .next (s.copyBody cluster i)

/-- A receiver is served, or has failed with a code (R274, R275). -/
def Copy.serve (c : Copy) (r : Nat) (code : BitVec 8) : Copy :=
  let d := { c.closeWindow r with served := c.served ++ [r], codes := c.codes.set r code }
  { d with bodyDone := d.rcv.length ≤ d.served.length }

/-- Bytes that the window takes in a slot (R275). -/
def Copy.slotBytes (c : Copy) : Nat := (c.nrow - 1) * c.dpitch + (c.ncol * fmtBits c.dfmt + 7) / 8

/-- The header of a receiver's ring, and the free-slot count F (R275 step 1). -/
def State.receiverRing (s : State) (c : Copy) (va : Word) : Except CopyStop (Ring × Nat) := do
  let l ← s.copyLoc c.who { r := true, w := true, home := true } va 64
  match l with
  | .scratch _ => .error (.fault 2 va)
  | .phys pa _ =>
    let g := s.ringAt pa
    if g.freec = 0 ∨ g.slotb < c.slotBytes then .ok (g, g.rp)
    else
      let m ← s.copyLoc c.who { r := true, ctr := .require } g.freec 8
      .ok (g, s.readLoc m 8)

/-- Has another window begun to fill the slot that WP of a ring names (R275)? DEDUCED: assumption 37. -/
def State.ringTaken (s : State) (cluster i r pa : Nat) : Bool :=
  s.clusters.any fun e => e.2.copies.zipIdx.any fun c =>
    c.1.windows.any fun w => w.ring == some pa && w.bits != 0 && !(e.1 == cluster && c.2 == i && w.rcv == r)

/-- CPYM_RECEIVER (R275): one receiver of a CPYM, whatever the others wait for. DEDUCED: assumption 37. -/
def State.copyReceiver (s : State) (cluster i r : Nat) : State :=
  match s.copyAt cluster i with
  | none => s
  | some c =>
    let open_ := c.window r
    if c.multi = false ∨ c.bodyDone = true ∨ (open_.bind (·.parked)).isSome = true ∨ c.rcv.length ≤ r ∨ c.served.contains r = true ∨
        s.copyOn cluster i = false
    then s
    else
      let va := c.rcv.getD r 0
      let failed (s : State) (c : Copy) (code : BitVec 8) (addr : Word) : State :=
        if s.copyStalls c then s.putCopy cluster i c
        else (if c.mbox = 0 then s.copyRecord c code addr else s).putCopy cluster i (c.serve r code)
      let w0 : CopyWindow := open_.getD { rcv := r, base := 0 }
      match s.receiverRing { c with grant := w0.grant } va with
      | .error (.fault code a) => failed s c code a
      | .error e => let x := s.copyWaits c w0 e; x.1.putCopy cluster i (c.setWindow x.2)
      | .ok (g, f) =>
        -- a window that has written nothing takes the slot that WP names now
        if g.slotb < c.slotBytes then failed s c 7 va
        else if w0.bits = 0 ∧ ((g.nslot : Int) - ((g.wp : Int) - f) < 1 ∨ s.ringTaken cluster i r g.pa = true) then
          if w0.grant = none then s else s.putCopy cluster i (c.setWindow { w0 with grant := none })
        else
          let w : CopyWindow :=
            if w0.bits = 0 then { w0 with base := g.base + BitVec.ofNat 64 (g.wp % g.nslot * g.slotb), ring := some g.pa } else w0
          let q := s.copyRun c w (c.nrow * c.ncol)
          let c1 := { c with flags := c.flags ||| q.2.1 }.setWindow q.2.2.1
          match q.2.2.2 with
          | none => (q.1.poke g.pa 8 (g.wp + 1)).putCopy cluster i (c1.serve r 0)
          | some (.fault code a) => failed q.1 c1 code a
          | some e => let x := q.1.copyWaits c1 q.2.2.1 e; x.1.putCopy cluster i (c1.setWindow x.2)
def execCpymReceiver (cluster : Nat) (i : Nat) (r : BitVec 3) (s : State) : Host.Outcome State Fault Refusal :=
  .next (s.copyReceiver cluster i r.toNat)

/-- The record that parked windows of a command wait for has been resumed: they go on at their faulting element (R274, R335). -/
def State.resumeCopy (s : State) (cluster i : Nat) : State :=
  match s.copyAt cluster i with
  | none => s
  | some c => s.putCopy cluster i
      { c with windows := c.windows.map fun w => if w.filled then { w with parked := none, filled := false } else w }
/-- COPY_PAGE_RESUME (R274, R335). -/
def execCopyPageResume (cluster : Nat) (i : Nat) (s : State) : Host.Outcome State Fault Refusal := .next (s.resumeCopy cluster i)

/-- The first code of a command in the order of R274. DEDUCED: assumption 37. -/
def Copy.firstCode (c : Copy) : BitVec 8 := if c.multi then (c.codes.find? (· != 0)).getD c.code else c.code
/-- The line of a completion mailbox (R274). DEDUCED: assumption 37. -/
def Copy.status (c : Copy) : BitVec 512 :=
  let w1 : Word := 0#16 ++ BitVec.ofNat 32 (min c.bytes (2 ^ 32 - 1)) ++ c.firstCode ++ 0#2 ++ c.flags
  let w2 : Word := BitVec.ofNat 64 (c.codes.foldr (fun x n => x.toNat + 256 * n) 0)
  0#320 ++ (if c.multi then w2 else 0) ++ w1 ++ c.word 768

/-- The completion add of a command whose body is done (R274): `error` with the command as it stands while it must wait, for a home, or
for the room of a record (R270). -/
def State.copyAdd (s : State) (c : Copy) : Except Copy (State × Copy) :=
  if c.cmpl = 0 ∨ c.added = true then .ok (s, c)
  else
    let n := c.windowBytes * if c.multi then c.rcv.length else 1
    match s.counterPa c.who c.cmpl with
    | .ok pa =>
      if s.addStalls pa c.tenant n then .error c
      else .ok (s.agentAdd pa c.cmpl c.tid c.tenant n, { c with added := true, grant := none })
    | .error b =>
      if b.waits then .error { c with grant := c.who.keep s.clk b }
      else if s.postRoom c.tenant then
        .ok (s.copyRecord c 6 c.cmpl, { c with added := true, grant := none, code := if c.code = 0 then 6 else c.code })
      else .error c

/-- The requester of a completion store: one that waits its turn at a mailbox keeps it where the stack is handed over (R347). -/
def State.storeWho (s : State) (c : Copy) (w : Waiter) : Who :=
  match s.mailboxes.find? (·.waiters.contains w) with
  | some m => { c.who with granted := some { stack := stackOf m.pa, since := 0 } }
  | none => c.who

/-- COPY_COMPLETION (R274): the add, then the mailbox, and the command leaves the queue. -/
def State.copyEnd (s : State) (cluster i : Nat) : State :=
  match s.copyAt cluster i with
  | none => s
  | some c0 =>
    if c0.bodyDone = false ∨ s.copyOn cluster i = false then s
    else match s.copyAdd c0 with
    | .error c => s.putCopy cluster i c
    | .ok (s1, c) =>
      let w := Waiter.copy cluster c.tid c.descVa
      let done (s : State) : State :=
        let cl := s.cluster cluster
        s.setCluster cluster { cl with copies := cl.copies.eraseIdx i }
      if c.mbox = 0 then done s1
      else match s1.copyLoc (s1.storeWho c w) { w := true, home := true } c.mbox 64 with
      | .error (.wait g) => s1.putCopy cluster i { c with grant := g }
      | .ok (.phys pa e) =>
        if s1.mailFree pa w = false then (s1.awaitMail pa w).putCopy cluster i { c with grant := none }
        else match s1.groomStore c.tid c.who.die (.phys pa e) 64 c.status.toNat with
        | .ok s2 => done (s2.capture pa w { line := c.status, stamp := s.stamp, arrival := s.stamp, src := none })
        | .error (.mark line) => s1.putCopy cluster i { c with markWait := keepWait c.markWait line s.clk }
        | .error _ => s1.putCopy cluster i c
      | _ => if s1.postRoom c.tenant then done (s1.copyRecord c 6 c.mbox) else s1.putCopy cluster i c
def execCopyCompletion (cluster : Nat) (i : Nat) (s : State) : Host.Outcome State Fault Refusal := .next (s.copyEnd cluster i)

/-! ### GROOM_MARK_WAIT_RECORD (R328, R334) -/

/-- Has a wait for a mark on a line lasted 65,536 clks with no record posted? -/
def markOverdue (w : Option (Nat × Nat × Bool)) (line clk : Nat) : Bool :=
  match w with | some (l, c, posted) => l == line && !posted && decide (c + 65536 ≤ clk) | none => false
def markPosted (w : Option (Nat × Nat × Bool)) : Option (Nat × Nat × Bool) := w.map fun x => (x.1, x.2.1, true)

/-- A stream or a command notes that its record has been posted. -/
def Stream.notePosted (line clk : Nat) (r : Stream) : Stream :=
  if markOverdue r.markWait line clk then { r with markWait := markPosted r.markWait } else r
/-- Is a command the one of a task with a descriptor, overdue for a line? -/
def Copy.late (tid : Tid) (desc : Word) (line clk : Nat) (c : Copy) : Bool :=
  c.tid == tid && c.descVa == desc && (markOverdue c.markWait line clk || c.windows.any fun w => markOverdue w.markWait line clk)
/-- A wait for a mark on a line, once its record has been posted. -/
def notedWait (line clk : Nat) (w : Option (Nat × Nat × Bool)) : Option (Nat × Nat × Bool) :=
  if markOverdue w line clk then markPosted w else w
def Copy.notePosted (tid : Tid) (desc : Word) (line clk : Nat) (c : Copy) : Copy :=
  if c.late tid desc line clk then
    { c with markWait := notedWait line clk c.markWait, windows := c.windows.map fun w => { w with markWait := notedWait line clk w.markWait } }
  else c

/-- The record of the command of a task with a descriptor, or of a sink of the task where the descriptor is 0, once it finds room. -/
def State.groomRecord (s : State) (tid : Tid) (line : Nat) (desc : Word) : State :=
  let post (s : State) : State := s.postOwn (tid.extractLsb' 36 12) 7 0 tid (BitVec.ofNat 64 (64 * line)) 0 desc 0
  if s.postRoom (tid.extractLsb' 36 12) = false then s
  else if desc = 0 then
    match s.findTask tid with
    | none => s
    | some t =>
      if t.streams.toList.any (fun r => markOverdue r.markWait line s.clk) then
        post (s.modTask tid fun t => { t with streams := t.streams.map (Stream.notePosted line s.clk) })
      else s
  else if s.clusters.any (fun e => e.2.copies.any (Copy.late tid desc line s.clk)) then
    post { s with clusters := smapMap {} s.clusters fun _ c => { c with copies := c.copies.map (Copy.notePosted tid desc line s.clk) } }
  else s
def execGroomMarkWaitRecord (tid : BitVec 48) (pa desc : Word) (s : State) : Host.Outcome State Fault Refusal :=
  .next (s.groomRecord tid (lineOf pa.toNat) desc)
/-- The lines that a task's sinks, or a command, wait to mark. -/
def Copy.markLines (c : Copy) : List Nat := (c.markWait.map (·.1)).toList ++ c.windows.filterMap fun w => w.markWait.map (·.1)
def Task.markLines (t : Task) : List Nat := t.streams.toList.filterMap fun r => r.markWait.map (·.1)

end Sys2Proof.Machine
end

