-- ==== Sys2Proof/Machine/Fetch.lean ====
section
/-! DEFINITION. Instruction fetch (R56, R57, R171, R327, R331) and what surrounds an instruction's issue: stop entries (R369)
and the tasks whose YIELD counts it (R250). -/

namespace Sys2Proof.Machine

open Sys2Proof

/-- The mark on a line, if one stands (R331). -/
def State.markOn (s : State) (pa : Nat) : Option Mark := s.marks.find? (·.line == lineOf pa)

/-- The words from a physical address to the end of its 32-byte block (R56). -/
def State.blockWords (s : State) (pa : Nat) : Nat → List (BitVec 32)
  | 0 => []
  | n + 1 => BitVec.ofNat 32 (s.mem.read pa 4) :: State.blockWords s (pa + 4) n

/-- Fetch at the program counter: the checks before any decoding (R57, R91, R331), the halter of the line (R168), then the words. -/
def State.fetch (s : State) : Except Stop (State × List (BitVec 32)) :=
  match s.check s.task.who { x := true } s.task.pc with
  | .error b => .error (b.stop s.task.pc 3)
  | .ok (.scratch _) => .error (Stop.permission s.task.pc)
  | .ok (.phys pa _) =>
    if s.haltered s.task.tid (lineOf pa) then .error (.wait .retry)
    else
    let s1 := s.installX pa (s.leafSize s.task.who s.task.pc)
    match s1.markOn pa with
    | some m => .error (.trap { kind := 8, info0 := s.task.pc, info1 := (m.tid.map (·.setWidth 64)).getD 0xFFFFFFFFFFFFFFFF })
    | none => .ok (s1, s1.blockWords pa ((32 - pa % 32) / 4))

/-! ### A send to a peer package (R261) -/

/-- The send that the instruction at the program counter has still to complete. -/
def Task.sending (t : Task) : Option PeerSend := t.peerSent.filter (·.pc == t.pc)
/-- The peer has accepted the word: the instruction completes. -/
def Task.sent (t : Task) : Task :=
  match t.peerSent with | some p => { t with pc := p.next, peerSent := none, wait := .none } | none => t
/-- An instruction of task `t0` has sent a word to a peer: it completes when the peer accepts the word, and until then the program
counter stays at it. DEDUCED: assumption 45. -/
def State.holdSend (s : State) (t0 : Task) : State :=
  s.modTask t0.tid fun t => match t.peerSent with
    | some p => if p.pc = t0.pc ∧ t0.peerSent.isNone = true then { t with pc := t0.pc, peerSent := some { p with next := t.pc } } else t
    | none => t

/-- The lowest stop entry of a kind that follows a task (R369). -/
def State.stopEntry (s : State) (t : Task) (f : BitVec 2 → Nat → Bool) : Option Nat :=
  match s.paddock t.tenant with
  | none => none
  | some p => (List.range 8).find? fun n =>
      if h : n < 8 then
        (p.stops[n]).getLsbD 63 && (p.stops[n]).extractLsb' 0 48 == t.tid && f ((p.stops[n]).extractLsb' 61 2) n
      else false

/-- The lower of two stop entries. -/
def lowerEntry (a b : Option Nat) : Option Nat :=
  match a, b with | some x, some y => some (min x y) | some x, none => some x | none, y => y

/-- The lowest stop entry that matches before the next instruction of a task (R369): a due one, KIND 3, or KIND 0 at the program
counter. DEDUCED: assumption 57. -/
def State.stopNow (s : State) (t : Task) : Option Nat :=
  lowerEntry t.stopDue (s.stopEntry t fun k n =>
    k == 3 || (k == 0 && (match s.paddock t.tenant with
      | some p => if h : n < 8 then p.stopa[n] == t.pc else false
      | none => false)))

/-- The executing task has issued an instruction: tasks of its core that YIELD stop waiting for it (R250).
DEDUCED: assumption 43. -/
def Task.peerGone (tid : Tid) (t : Task) : Task :=
  match t.wait with
  | .yield ps => { t with wait := .yield (ps.filter (· != tid)) }
  | _ => t

/-- Has a task reached the boundary after an instruction that it issued (R369)? One whose instruction still waits has not, nor
one whose instruction ended in a debug stop. DEDUCED: assumption 57. -/
def Task.pastIssue (stopped : Bool) (t : Task) : Bool :=
  t.cstate == .running || t.cstate == .ready || (t.cstate == .preempted && !stopped)

/-- After an instruction of the task has issued: its peers learn of it, and a KIND 1 stop entry becomes due (R369). -/
def State.issued (s : State) (tid : Tid) (stopped : Bool) : State :=
  let s := s.mapOthers (Task.peerGone tid)
  match s.findTask tid with
  | none => s
  | some t => match s.stopEntry t (fun k _ => k == 1) with
    | none => s
    | some n => if t.pastIssue stopped then s.modTask tid fun t => { t with stopDue := some n } else s

end Sys2Proof.Machine
end

