-- ==== Sys2Proof/Machine/Kernel.lean ====
section
/-! DEFINITION. Kernels (R277 to R294): declarations and loads, LAUNCH and EMIT, the doorbell page, the placement of
activations and the gait controller. -/

namespace Sys2Proof.Machine

open Sys2Proof

/-! ### Kernels and handles (R279, R293) -/

/-- Does the device hold a kernel in a slot: loaded, running, draining or faulted? -/
def Kernel.held (k : Kernel) : Bool := k.state == .loaded || k.state == .running || k.state == .draining || k.state == .faulted
/-- Does a kernel take EMITs, and the posts that already wait? -/
def Kernel.open (k : Kernel) : Bool := k.state == .loaded || k.state == .running || k.state == .draining
/-- The handle of a slot's kernel (R279). DEDUCED: assumption 21. -/
def Kernel.handle (k : Kernel) (kid : BitVec 6) : Word := k.gen ++ 0#42 ++ kid
/-- The slot that a handle names (R293). -/
def Paddock.named (p : Paddock) (h : Word) : Option (BitVec 6) :=
  let kid : BitVec 6 := h.extractLsb' 0 6
  if h ≠ 0 ∧ (p.kernel kid).held = true ∧ h = (p.kernel kid).handle kid then some kid else none
/-- State code (R279). -/
def KState.code : KState → Nat
  | .none => 4 | .loaded => 1 | .running => 2 | .draining => 3 | .retired => 4 | .faulted => 5
/-- Is a task a live activation of a kernel (R279)? -/
def Task.activationOf (t : Task) (tenant : BitVec 12) (kid : BitVec 6) (gen : BitVec 16) : Bool :=
  t.kcur != 0 && t.tenant == tenant && t.kcur.extractLsb' 0 6 == kid && t.kcur.extractLsb' 48 16 == gen && t.cstate != .dumped &&
    t.cstate != .free
def State.live (s : State) (tenant : BitVec 12) (kid : BitVec 6) (gen : BitVec 16) : Nat :=
  (s.tasks.filter (·.activationOf tenant kid gen)).length
/-- Entries queued in all stages. -/
def Kernel.queued (k : Kernel) : Nat := (k.stages.map (·.queue.length)).sum

/-! ### Loading (R277, R281) -/

/-- A declaration: header and stage entries. -/
structure Decl where
  header : BitVec 512
  stages : List (BitVec 256)
deriving DecidableEq, Repr

def Decl.nat (d : Decl) (lo n : Nat) : Nat := (d.header.extractLsb' lo n).toNat

/-- Read a declaration with plain loads of 64 and 32 bytes. DEDUCED: assumption 49. -/
def readDecl {ε : Type} (load : Word → Nat → Except ε Nat) (va : Word) : Except ε Decl := do
  let h ← load va 64
  let header : BitVec 512 := BitVec.ofNat 512 h
  let stages ← (List.range (header.extractLsb' 0 5).toNat).mapM fun g => load (va + BitVec.ofNat 64 (64 + 32 * g)) 32
  .ok { header := header, stages := stages.map (BitVec.ofNat 256) }

/-- The stage of an entry. -/
def stageOf (x : BitVec 256) : Stage where
  handler := x.extractLsb' 0 64
  cap := (x.extractLsb' 64 32).toNat
  min := (x.extractLsb' 96 16).toNat
  max := (x.extractLsb' 112 16).toNat
  twin := x.extractLsb' 128 64

/-- Limits of a stage (R277). -/
def Stage.legal (g : Stage) : Bool :=
  decide (1 ≤ g.cap) && decide (g.cap ≤ 16384) && decide (1 ≤ g.max) && decide (g.max ≤ 2304) && decide (g.min ≤ g.max) &&
    g.handler.toNat % 4 == 0 && decide (g.handler.toNat < 2 ^ 48)

/-- Limits of R277, and a TWIN or TVEC where the launcher may give none (R281 step 2). -/
def Decl.legal (d : Decl) (mayWindow : Bool) : Bool :=
  let pool := d.nat 64 64
  decide (1 ≤ d.nat 0 5) && decide (d.nat 0 5 ≤ 16) && decide (d.nat 8 4 < d.nat 0 5) &&
    (pool == 0 || (pool % 64 == 0 && decide (1 ≤ d.nat 128 32) && decide (d.nat 128 32 ≤ 65536))) &&
    d.stages.all (fun x => (stageOf x).legal) &&
    (mayWindow || (d.nat 192 64 == 0 && d.stages.all fun x => (stageOf x).twin == 0))

/-- Entries in use of a die's gait controller (R281: 16,384). -/
def State.storeUsed (s : State) (die : BitVec 2) : Nat :=
  (s.paddocks.map fun p => ((p.kernels.toList.filter fun k => k.held && k.die == die).map fun k => (k.stages.map (·.cap)).sum).sum).sum

/-- Cores bound, or to be bound, in a paddock. -/
def Paddock.boundCores (p : Paddock) : List Nat := p.kernels.toList.flatMap fun k => k.stages.flatMap fun g => g.cores ++ g.joining.map (·.1)
/-- Free cores of the kernel core pool in increasing number (R281, R380). -/
def Paddock.freeCores (p : Paddock) : List Nat :=
  let bound := p.boundCores
  (p.poolClusters.flatMap fun c => (List.range 8).map (8 * c + ·)).filter fun c => !bound.contains c

/-- Bind MIN cores to each stage in turn; none where the pool is short. -/
def bindMin : List Stage → List Nat → Option (List Stage)
  | [], _ => some []
  | g :: l, free =>
    if free.length < g.min then none
    else (bindMin l (free.drop g.min)).map fun l => { g with cores := free.take g.min } :: l

/-- How a load ends: a status of R291, or the state with the kernel's slot. -/
inductive Load where
  | status (n : Nat)
  | done (s : State) (kid : BitVec 6)

/-- Steps 3 to 5 of R281. DESIGN CHOICE: assumption 19. DEDUCED: assumption 21. -/
def State.loadKernel (s : State) (tenant : BitVec 12) (p : Paddock) (d : Decl) (decl aspace : Word) (die : BitVec 2) : Load :=
  let gs := d.stages.map stageOf
  if 16384 < s.storeUsed die + (gs.map (·.cap)).sum then .status 2
  else match bindMin gs p.freeCores with
  | none => .status 2
  | some bound =>
    match s.choose ((List.range 64).filter fun n => !(p.kernel (BitVec.ofNat 6 n)).held) with
    | none => .status 1
    | some n =>
      let kid := BitVec.ofNat 6 n
      let k : Kernel := { state := .loaded, gen := (p.kernel kid).gen + 1, decl := decl, stages := bound, tvec := d.header.extractLsb' 192 64,
                          fstop := d.header.getLsbD 175, ctxpool := d.header.extractLsb' 64 64, nctx := d.nat 128 32,
                          entry := d.nat 8 4, aspace := aspace, die := die, loadedAt := s.clk, period := s.clk / 1024 }
      .done (s.modKernel tenant kid fun _ => k) kid

/-- The kernel of a declaration that a launch finds (R281, R292): a loaded or running one first, else one that refuses.
DEDUCED: assumption 49. -/
def Paddock.launchTarget (p : Paddock) (decl : Word) : Option (BitVec 6) :=
  let at_ (f : Kernel → Bool) : Option (BitVec 6) :=
    ((List.range 64).find? fun n => (p.kernel (BitVec.ofNat 6 n)).decl == decl && f (p.kernel (BitVec.ofNat 6 n))).map (BitVec.ofNat 6)
  match at_ (fun k => k.state == .loaded || k.state == .running) with
  | some k => some k
  | none => at_ Kernel.held

/-! ### Posting -/

/-- Append an entry of one whose turn it is to a stage queue; a launch makes a loaded kernel running (R279). -/
def State.append (s : State) (tenant : BitVec 12) (kid : BitVec 6) (g : Nat) (w : Waiter) (e : Entry) (launch : Bool) : State :=
  s.modKernel tenant kid fun k =>
    { k.modStage g (fun x => { x with queue := x.queue ++ [e], busy := true, waiters := x.waiters.filter (· != w) }) with
        state := if launch && k.state == .loaded then .running else k.state }
/-- A LAUNCH or EMIT that meets a full queue (R285: bp). -/
def State.backPressure (s : State) (tenant : BitVec 12) (kid : BitVec 6) (g : Nat) : State :=
  s.modKernel tenant kid fun k => k.modStage g fun x => { x with bp := true }

/-- The entry that a task posts. -/
def State.entryOf (s : State) (x : BitVec 512) : Entry := { bytes := x, stamp := s.stamp, src := s.task.srcRank }

/-- May a message of the executing task go to the home gait controller of the kernel in a slot, or that a handle names (R360)?
DESIGN CHOICE: assumption 46. -/
def State.kernelWay (s : State) (kid : BitVec 6) : Bool :=
  match s.paddock s.task.tenant with | some p => s.linked (p.kernel kid).die.toNat | none => true
def State.handleWay (s : State) (h : Word) : Bool :=
  match (s.paddock s.task.tenant).bind (·.named h) with | some kid => s.kernelWay kid | none => true

/-- Post an entry of the executing task to a stage of the kernel that `s1` holds, or stall (R292, R294), as it does while no link leads
to the kernel's die (R360); `s` is the state before the instruction. -/
def State.postTo (s s1 : State) (i : Instr) (o : Ops) (kid : BitVec 6) (g : Nat) (x : BitVec 512) (launch : Bool) :
    Host.Outcome State Fault Refusal :=
  let tenant := s.task.tenant
  match s1.paddock tenant with
  | none => s.run i (s.complete o 4)
  | some _ =>
    let w := Waiter.task s.task.tid
    if s1.kernelWay kid = false then s.run i (.error (.wait .retry))
    else if s1.postFree tenant kid g w then s.run i ((s1.append tenant kid g w (s.entryOf x) launch).complete o 0)
    else (s1.backPressure tenant kid g).run i (.error (.wait (.post kid g false)))

/-- The post that the executing task already waits for. -/
def Task.posting (t : Task) : Option (BitVec 6 × Nat × Bool) :=
  match t.wait with | .post k g a => some (k, g, a) | _ => none

/-- A launch of the executing task of the record of two lines (R281, R292). DEDUCED: assumption 49. -/
def State.launch (s : State) (i : Instr) (o : Ops) (lo hi : BitVec 512) : Host.Outcome State Fault Refusal :=
  let tenant := s.task.tenant
  let decl : Word := lo.extractLsb' 0 64
  match s.paddock tenant with
  | none => s.run i (s.complete o 4)
  | some p =>
    let fresh : Host.Outcome State Fault Refusal :=
      match p.launchTarget decl with
      | some kid =>
        let k := p.kernel kid
        if k.state = .draining ∨ k.state = .faulted then s.run i (s.complete o 3) else s.postTo s i o kid k.entry hi true
      | none =>
        if s.task.sup = false then s.run i (s.complete o 4)
        else match readDecl (fun va n => s.load {} va n n) decl with
        | .error e => s.run i (.error e)
        | .ok d =>
          if d.legal (!p.cfg.forbid) = false then s.run i (.error Stop.illegalOperand)
          else match s.loadKernel tenant p d decl s.task.aspace (BitVec.ofNat 2 s.task.die) with
          | .status n => s.run i (s.complete o (BitVec.ofNat 64 n))
          | .done s1 kid => s.postTo s1 i o kid (d.nat 8 4) hi true
    match s.task.posting with
    | some (_, _, true) => s.run i (s.complete o 3)
    | some (kid, _, false) =>
      let k := p.kernel kid
      if k.decl = decl ∧ k.open = true then s.postTo s i o kid k.entry hi true else fresh
    | none => fresh

/-- LAUNCH (R292). -/
def execLaunch (o : Ops) (s : State) : Host.Outcome State Fault Refusal :=
  match (do
    let a ← s.srcA o
    let lo ← s.load {} a 64 64
    let hi ← s.load {} (a + 64) 64 64
    .ok (BitVec.ofNat 512 lo, BitVec.ofNat 512 hi) : Except Stop (BitVec 512 × BitVec 512)) with
  | .error e => s.run (.launch o) (.error e)
  | .ok (lo, hi) => s.launch (.launch o) o lo hi

/-- Does a post that came in time still wait at a stage of a kernel (R280)? -/
def State.postsWait (s : State) (tenant : BitVec 12) (kid : BitVec 6) : Bool :=
  match s.paddock tenant with
  | none => false
  | some p => (List.range (p.kernel kid).stages.length).any fun g =>
      ((p.kernel kid).stage g).waiters.any (s.postWaits tenant kid g)
/-- A kernel retires (R279): a draining one with nothing queued, no post that came before the drain and still waits (R280), and no live
activation, or a faulted one with no live activation. -/
def State.retire (s : State) (tenant : BitVec 12) (kid : BitVec 6) : State :=
  match s.paddock tenant with
  | none => s
  | some p =>
    let k := p.kernel kid
    if s.live tenant kid k.gen = 0 ∧ ((k.state = .draining ∧ k.queued = 0 ∧ s.postsWait tenant kid = false) ∨ k.state = .faulted) then
      s.modKernel tenant kid fun k => { state := .retired, gen := k.gen }
    else s
/-- Drain the kernel that a handle names (R293): the status and the state. An empty kernel drains at once (R286). -/
def State.drain (s : State) (tenant : BitVec 12) (h : Word) : Nat × State :=
  match s.paddock tenant with
  | none => (5, s)
  | some p =>
    match p.named h with
    | none => (5, s)
    | some kid =>
      if (p.kernel kid).state = .draining ∨ (p.kernel kid).state = .faulted then (3, s)
      else (0, (s.modKernel tenant kid fun k => { k with state := .draining }).retire tenant kid)
/-- LAUNCH.drain (R293). -/
def execLaunchDrain (o : Ops) (s : State) : Host.Outcome State Fault Refusal :=
  s.run (.launchDrain o) (do
    let h ← s.srcA o
    need (s.handleWay h) (.wait .retry)
    let r := s.drain s.task.tenant h
    r.2.complete o (BitVec.ofNat 64 r.1))

/-- The status image of a handle (R293). -/
def State.kernelImage (s : State) (tenant : BitVec 12) (h : Word) : Word :=
  match s.paddock tenant with
  | none => 4
  | some p =>
    match p.named h with
    | none => 4
    | some kid =>
      let k := p.kernel kid
      BitVec.ofNat 32 k.queued ++ BitVec.ofNat 24 (s.live tenant kid k.gen) ++ 0#5 ++ BitVec.ofNat 3 k.state.code
/-- LAUNCH.stat (R293). -/
def execLaunchStat (o : Ops) (s : State) : Host.Outcome State Fault Refusal :=
  s.run (.launchStat o) (do
    let h ← s.srcA o
    need (s.handleWay h) (.wait .retry)
    s.complete o (s.kernelImage s.task.tenant h))

/-- LAUNCH.abort (R286, R293): for a supervisor task. -/
def execLaunchAbort (o : Ops) (s : State) : Host.Outcome State Fault Refusal :=
  s.run (.launchAbort o) (do
    s.needSup
    let h ← s.srcA o
    need (s.handleWay h) (.wait .retry)
    match s.paddock s.task.tenant with
    | none => s.complete o 5
    | some p =>
      match p.named h with
      | none => s.complete o 5
      | some kid =>
        if (p.kernel kid).state = .faulted then s.complete o 3
        else (s.faultKernel s.task.tenant kid).complete o 0)

/-- The kernel of the executing activation, if it is still the one that KCUR names. -/
def Task.ownKernel (t : Task) (p : Paddock) : Option (BitVec 6) :=
  let kid : BitVec 6 := t.kcur.extractLsb' 0 6
  if (p.kernel kid).held = true ∧ (p.kernel kid).gen = t.kcur.extractLsb' 48 16 then some kid else none

/-- EMIT (R294). -/
def execEmit (o : Ops) (s : State) : Host.Outcome State Fault Refusal :=
  match (do
    need (s.task.kcur != 0) Stop.illegalOperand
    let a ← s.srcA o
    let b ← s.srcB o
    let own := (s.paddock s.task.tenant).bind fun p => (s.task.ownKernel p).map fun kid => (kid, p.kernel kid)
    need (match own with | some (_, k) => decide (b.toNat < k.stages.length) | none => true) Stop.illegalOperand
    let v ← s.load {} a 64 64
    .ok (own, b.toNat, BitVec.ofNat 512 v) : Except Stop (Option (BitVec 6 × Kernel) × Nat × BitVec 512)) with
  | .error e => s.run (.emit o) (.error e)
  | .ok (own, g, x) =>
    match own, s.task.posting with
    | none, _ => s.run (.emit o) (s.complete o 3)
    | some _, some (_, _, true) => s.run (.emit o) (s.complete o 3)
    | some (kid, k), _ => if k.open then s.postTo s (.emit o) o kid g x false else s.run (.emit o) (s.complete o 3)

/-! ### The doorbell page (R282, R365, R383) -/

/-- Does the device take a doorbell write of a virtual function: the host link is up, the paddock runs and holds the function,
and its FEAT mask is committed (R365, R379, R383)? -/
def State.doorbell (s : State) (tenant : BitVec 12) (v : Nat) (needCommit : Bool) : Option Paddock :=
  match s.paddock tenant with
  | none => none
  | some p => if s.hostLinkUp && p.started && p.cfg.vfs.getLsbD v && (p.committed || !needCommit) then some p else none

/-- A type 4 record (R334); the record offset is 0 (DEDUCED, assumption 17). -/
def State.launchRecord (s : State) (tenant : BitVec 12) (v : Nat) (code : Nat) (decl : Word) : State :=
  s.post tenant v 4 (BitVec.ofNat 8 code) 0 decl 0 0 0

/-- DOORBELL_LAUNCH (R282): a record beyond the 256 of the buffer is discarded with a fault record, for which the write waits (R258). -/
def execDoorbellLaunch (tenant : BitVec 12) (vf : BitVec 6) (record : BitVec 1024) (s : State) : Host.Outcome State Fault Refusal :=
  .next (match s.doorbell tenant vf.toNat true with
    | none => s
    | some p =>
      if (p.vf vf.toNat).launches.length < 256 then
        s.modVf tenant vf.toNat fun f => { f with launches := f.launches ++ [(record, s.clk)] }
      else if (p.vf vf.toNat).buffer.length < 64 then s.launchRecord tenant vf.toNat 6 (record.extractLsb' 0 64)
      else s)

/-- A read of the device for a virtual function, aligned to its size; it waits for a halter (R168), and one with an uncorrectable error
fails. DEDUCED: assumption 49. -/
def State.agentRead (s : State) (w : Who) (va : Word) (n : Nat) : Except Bad Nat :=
  if va.toNat % n ≠ 0 then .error .permission
  else match s.check w { r := true } va with
  | .ok l => if s.halters.any (·.line == lineOf l.pa) then .error .busy else if s.locPoisoned l n then .error .permission else .ok (s.readLoc l n)
  | .error e => .error e
/-- The code bit that the walk of such a read sets (R327). -/
def State.agentNote (s : State) (w : Who) (va : Word) : State :=
  match s.check w { r := true } va with | .ok l => s.noteX w va l | .error _ => s
/-- The code bits that the reads of a declaration set. -/
def State.noteDecl (s : State) (w : Who) (decl : Word) : State :=
  let n := match s.agentRead w decl 64 with | .ok h => h % 32 | .error _ => 0
  (decl :: (List.range n).map fun g => decl + BitVec.ofNat 64 (64 + 32 * g)).foldl (fun s va => s.agentNote w va) s
/-- Has an earlier posted write of the host to a stack of the paddock still to perform (R282, R335)? DEDUCED: assumption 60. -/
def State.hostPending (s : State) (tenant : BitVec 12) (since : Nat) : Bool :=
  s.hostHeld.any fun a => a.write.isSome && decide (a.since ≤ since) && (s.stack (stackOf a.pa)).tenant == some tenant

/-- The oldest record of a virtual function leaves its buffer. -/
def State.popLaunch (s : State) (tenant : BitVec 12) (v : Nat) : State :=
  s.modVf tenant v fun f => { f with launches := f.launches.drop 1, stalled := none }

/-- Post the entry of a doorbell record, or wait for room (R282). -/
def State.doorbellPost (s : State) (tenant : BitVec 12) (v : Nat) (kid : BitVec 6) (record : BitVec 1024) : State :=
  match s.paddock tenant with
  | none => s
  | some p =>
    let k := p.kernel kid
    if s.postFree tenant kid k.entry (.vf v) then
      (s.append tenant kid k.entry (.vf v) { bytes := record.extractLsb' 512 512, stamp := s.stamp, src := 0xFFFFF } true).popLaunch
        tenant v
    else (s.awaitPost tenant kid k.entry (.vf v)).modVf tenant v fun f => { f with stalled := some (kid, k.gen) }

/-- A doorbell launch that ends with a status posts it (R282), once its fault buffer has room (R258). -/
def State.doorbellFail (s : State) (tenant : BitVec 12) (v : Nat) (code : Nat) (decl : Word) : State :=
  match s.paddock tenant with
  | none => s
  | some p => if (p.vf v).buffer.length < 64 then (s.launchRecord tenant v code decl).popLaunch tenant v else s

/-- The load of a doorbell launch (R281): by the home gait controller of the paddock's lowest die, as a supervisor launcher;
`none` where a frame in transit, a halter or a link holds it up. DEDUCED: assumption 49. -/
def State.doorbellLoad (s : State) (tenant : BitVec 12) (p : Paddock) (v : Nat) (decl : Word) : Option Load :=
  let w := p.vfWho v
  match readDecl (s.agentRead w) decl with
  | .error (.transit _ _) | .error .busy => none
  | .error _ => some (.status 7)
  | .ok d =>
    if d.legal (!p.cfg.forbid) then some (s.loadKernel tenant p d decl w.aspace (BitVec.ofNat 2 w.die)) else some (.status 7)

/-- DOORBELL_RECORD_TAKE (R282): the oldest record, once every posted write before it has performed. -/
def State.takeLaunch (s : State) (tenant : BitVec 12) (v : Nat) : State :=
  match s.paddock tenant with
  | none => s
  | some p =>
    match (p.vf v).launches with
    | [] => s
    | (x, c) :: _ =>
      let decl : Word := x.extractLsb' 0 64
      if s.hostPending tenant c then s
      else match (p.vf v).stalled with
      | some (kid, gen) =>
        if (p.kernel kid).open = true ∧ (p.kernel kid).gen = gen then s.doorbellPost tenant v kid x else s.doorbellFail tenant v 3 decl
      | none =>
        match p.launchTarget decl with
        | some kid =>
          if (p.kernel kid).state = .draining ∨ (p.kernel kid).state = .faulted then s.doorbellFail tenant v 3 decl
          else s.doorbellPost tenant v kid x
        | none =>
          let s0 := s.noteDecl (p.vfWho v) decl
          match s0.doorbellLoad tenant p v decl with
          | none => s0
          | some (.status n) => s0.doorbellFail tenant v n decl
          | some (.done s1 kid) => s1.doorbellPost tenant v kid x
def execDoorbellRecordTake (tenant : BitVec 12) (vf : BitVec 6) (s : State) : Host.Outcome State Fault Refusal :=
  .next (s.takeLaunch tenant vf.toNat)

/-- KERNEL_LOAD (R281): the load of a doorbell launch whose declaration no held kernel has. -/
def execKernelLoad (tenant : BitVec 12) (vf : BitVec 6) (decl : Word) (s : State) : Host.Outcome State Fault Refusal :=
  .next (match s.paddock tenant with
    | none => s
    | some p =>
      if (p.launchTarget decl).isSome || s.hostPending tenant s.clk then s
      else match (s.noteDecl (p.vfWho vf.toNat) decl).doorbellLoad tenant p vf.toNat decl with
      | some (.done s1 _) => s1
      | _ => s)

/-- DOORBELL_DRAIN (R282): the handle is also selected for status. -/
def execDoorbellDrain (tenant : BitVec 12) (vf : BitVec 6) (kh : Word) (s : State) : Host.Outcome State Fault Refusal :=
  .next (match s.doorbell tenant vf.toNat true with
    | none => s
    | some _ => (s.drain tenant kh).2.modVf tenant vf.toNat fun f => { f with selected := kh })
/-- DOORBELL_SELECT (R282). -/
def execDoorbellSelect (tenant : BitVec 12) (vf : BitVec 6) (kh : Word) (s : State) : Host.Outcome State Fault Refusal :=
  .next (match s.doorbell tenant vf.toNat true with
    | none => s
    | some _ => s.modVf tenant vf.toNat fun f => { f with selected := kh })
/-- The byte at an offset of the doorbell page (R365): of the status of the selected handle, of the FEAT bits offered, of the address
of the fault queue's header; every other offset reads 0, and so does FEAT of a paddock that was not started (R379).
DEDUCED: assumption 67. -/
def State.doorbellByte (s : State) (tenant : BitVec 12) (v off : Nat) : Byte :=
  match s.paddock tenant with
  | none => 0
  | some p =>
    if 0x088 ≤ off ∧ off < 0x090 then (s.kernelImage tenant (p.vf v).selected).extractLsb' (8 * (off - 0x088)) 8
    else if p.started = true ∧ 0x0A0 ≤ off ∧ off < 0x0B0 then s.boot.offer.extractLsb' (8 * (off - 0x0A0)) 8
    else if 0x0C0 ≤ off ∧ off < 0x0C8 then (p.vf v).header.extractLsb' (8 * (off - 0x0C0)) 8
    else 0

/-- FEAT_MASK_COMMIT (R383): FEAT becomes offer AND mask; a second commit is ignored. -/
def execFeatMaskCommit (tenant : BitVec 12) (vf : BitVec 6) (mask : BitVec 128) (s : State) : Host.Outcome State Fault Refusal :=
  .next (match s.doorbell tenant vf.toNat false with
    | none => s
    | some p => if p.committed then s else s.modPaddock tenant fun p => { p with feat := s.boot.offer &&& mask, committed := true })
/-- FAULT_QUEUE_HEADER_WRITE (R365, R383). -/
def execFaultQueueHeaderWrite (tenant : BitVec 12) (vf : BitVec 6) (addr : Word) (s : State) : Host.Outcome State Fault Refusal :=
  .next (match s.doorbell tenant vf.toNat false with
    | none => s
    | some _ => s.modVf tenant vf.toNat fun f => { f with header := addr })

/-! ### Activations (R283, R284) -/

/-- A list put in increasing order. -/
def insertNat (x : Nat) : List Nat → List Nat
  | [] => [x]
  | y :: l => if x ≤ y then x :: y :: l else y :: insertNat x l
def sortNat (l : List Nat) : List Nat := l.foldr insertNat []

/-- The order in which a stage's bound cores are tried (R283). -/
def Stage.order (g : Stage) : List Nat :=
  let l := sortNat g.cores
  match g.lastCore with
  | none => l
  | some c => l.filter (decide <| c < ·) ++ l.filter (decide <| · ≤ c)

/-- The lowest free context area of a kernel (R283): one that no context of the paddock holds (R390). DEDUCED: assumption 40. -/
def State.freeArea (s : State) (p : Paddock) (k : Kernel) : Option Word :=
  let base := if k.ctxpool = 0 then p.cfg.ctxBase else k.ctxpool
  let n := if k.ctxpool = 0 then p.cfg.ctxCount else k.nctx
  let probe (i : Nat) : Task :=
    { tid := p.tid, core := 2304 * k.die.toNat, aspace := k.aspace, ctxa := base + BitVec.ofNat 64 (0x4E00 * i) }
  ((List.range n).find? fun i => !(s.tasks.any fun t => t.cstate != .free && t.tenant == p.cfg.tenant && s.sameArea (probe i) t)).map
      fun i => (probe i).ctxa

/-- Place the head entry of a stage as a new activation, where a bound core has a free slot and an area is free (R283), once a message
may go to that core (R360). -/
def State.placeEntry (s : State) (tenant : BitVec 12) (kid : BitVec 6) (g : Nat) : State :=
  match s.paddock tenant with
  | none => s
  | some p =>
    let k := p.kernel kid
    let x := k.stage g
    match x.queue, x.order.find? (fun c => (s.freeSlot c).isSome), s.freeArea p k with
    | e :: rest, some core, some area =>
      if k.open && s.route tenant k.die.toNat (core / 2304) then
        let kcur : Word := k.gen ++ 0#36 ++ BitVec.ofNat 4 g ++ 0#2 ++ kid
        let t := freshTask p.tid x.handler 0 (if k.tvec = 0 then p.cfg.tvec else k.tvec) area k.aspace x.twin kcur
          (lineRegs e.bytes ++ [(9, kcur)])
        let t := { t with message := true, placed := s.stamp, qwait := interval e.stamp s.stamp, sender := e.src }
        let s1 := s.modKernel tenant kid fun k => k.modStage g fun x => { x with queue := rest, lastCore := some core }
        ((s1.useTid tenant).enrol t core).acquireAt core .p
      else s
    | _, _, _ => s
/-- ACTIVATION_PLACE (R283). -/
def execActivationPlace (tenant : BitVec 12) (kid : BitVec 6) (stage : BitVec 4) (s : State) : Host.Outcome State Fault Refusal :=
  .next (s.placeEntry tenant kid stage.toNat)

/-! ### The gait controller (R285) -/

/-- Cores bound to a stage. -/
def Stage.bound (g : Stage) : Nat := g.cores.length
/-- May a stage take one more core: those bound and those on their way to it never exceed MAX? DEDUCED: assumption 49. -/
def Stage.takesCore (g : Stage) : Bool := decide (g.cores.length + g.joining.length < g.max)
/-- Does stage a come before stage b in `needy`? The greater q ÷ CAP goes first where neither the cores nor bp decide.
DEDUCED: assumption 50. -/
def needyBefore (a b : Nat × Stage) : Bool :=
  let x := a.2
  let y := b.2
  if (x.bound == 0) != (y.bound == 0) then x.bound == 0
  else if x.bp != y.bp then x.bp
  else if x.queue.length * y.cap ≠ y.queue.length * x.cap then decide (y.queue.length * x.cap < x.queue.length * y.cap)
  else decide (a.1 < b.1)
/-- The element of a list that comes first under an order. -/
def firstBy {α : Type} (before : α → α → Bool) : List α → Option α
  | [] => none
  | a :: l => match firstBy before l with
    | none => some a
    | some b => if before a b then some a else some b
/-- Is a stage idle over the period that ends: nothing queued throughout? -/
def Stage.idle (g : Stage) : Bool := !g.busy && g.queue.isEmpty
/-- The donor of a core (R285). DEDUCED: assumption 50. -/
def donorBefore (a b : Nat × Stage) : Bool :=
  let x := a.2.bound - a.2.min
  let y := b.2.bound - b.2.min
  if x ≠ y then decide (y < x) else decide (b.1 < a.1)
/-- Live activations of a stage in a core's slots. -/
def State.activationsOn (s : State) (tenant : BitVec 12) (core : Nat) (kid : BitVec 6) (gen : BitVec 16) (g : Nat) : Nat :=
  (s.tasks.filter fun t => t.activationOf tenant kid gen && t.inSlot && t.core == core && (t.kcur.extractLsb' 8 4).toNat == g).length
/-- The core that a donor gives: fewest live activations, then lowest number. DEDUCED: assumption 50. -/
def State.donated (s : State) (tenant : BitVec 12) (kid : BitVec 6) (gen : BitVec 16) (u : Nat × Stage) : Option Nat :=
  firstBy (fun a b =>
    let x := s.activationsOn tenant a kid gen u.1
    let y := s.activationsOn tenant b kid gen u.1
    if x ≠ y then decide (x < y) else decide (a < b)) u.2.cores

/-- A stage returns a core where it has been idle for 16 periods (R285); which one the spec leaves open.
DESIGN CHOICE: assumption 20. -/
def Stage.giveBack (free : Nat) (g : Stage) : Stage :=
  if g.min < g.bound ∧ 16 ≤ g.idleCount ∧ g.cores ≠ [] then
    { g with cores := g.cores.eraseIdx (Config.returnedCore free % g.cores.length), idleCount := 0 }
  else g
/-- A new period begins: a stage whose queue is not empty is busy from its start. -/
def Stage.newPeriod (waits : Bool) (g : Stage) : Stage := { g with busy := !g.queue.isEmpty, bp := waits }

/-- The procedure of R285 for one kernel. DESIGN CHOICE: assumption 20. DEDUCED: assumption 50. -/
def State.gait (s : State) (tenant : BitVec 12) (p : Paddock) (kid : BitVec 6) : State :=
  let k0 := p.kernel kid
  let k := { k0 with stages := k0.stages.map fun g => { g with idleCount := if g.idle then g.idleCount + 1 else 0 } }
  let gs := k.stages.mapIdx fun n g => (n, g)
  let k1 : Kernel :=
    match firstBy needyBefore (gs.filter fun g => g.2.queue ≠ [] ∧ g.2.takesCore = true) with
    | none => k
    | some t =>
      match p.freeCores with
      | c :: _ => k.modStage t.1 fun g => { g with cores := g.cores ++ [c] }
      | [] =>
        match firstBy donorBefore (gs.filter fun g => g.1 ≠ t.1 ∧ g.2.idle = true ∧ g.2.min < g.2.bound) with
        | none => k
        | some u =>
          match s.donated tenant kid k.gen u with
          | none => k
          | some c =>
            (k.modStage u.1 fun g => { g with cores := g.cores.filter (· != c) }).modStage t.1 fun g =>
              { g with joining := g.joining ++ [(c, u.1)] }
  let k2 := { k1 with stages := k1.stages.map (Stage.giveBack s.free) }
  s.modKernel tenant kid fun _ => k2

/-- GAIT_PERIOD_END (R285): a kernel takes part from the first whole period that begins after its load.
DEDUCED: assumption 50. -/
def State.periodEnd (s : State) (tenant : BitVec 12) (kid : BitVec 6) : State :=
  match s.paddock tenant with
  | none => s
  | some p =>
    let k := p.kernel kid
    if k.open = false ∨ s.clk < 1024 * (k.period + 1) then s
    else
      let s1 := if k.period * 1024 ≤ k.loadedAt then s else s.gait tenant p kid
      let waits (g : Nat) : Bool := s.tasks.any fun t => s.postWaits tenant kid g (.task t.tid)
      s1.modKernel tenant kid fun k => { k with period := k.period + 1, stages := k.stages.mapIdx fun n g => g.newPeriod (waits n) }
def execGaitPeriodEnd (tenant : BitVec 12) (kid : BitVec 6) (s : State) : Host.Outcome State Fault Refusal :=
  .next (s.periodEnd tenant kid)

/-- GAIT_CORE_REBIND (R285): a core on its way binds once its slots hold no activation of the stage it comes from. -/
def State.rebind (s : State) (tenant : BitVec 12) (kid : BitVec 6) (core : Nat) : State :=
  match s.paddock tenant with
  | none => s
  | some p =>
    let k := p.kernel kid
    match (List.range k.stages.length).findSome? fun g => ((k.stage g).joining.find? (·.1 == core)).map fun x => (g, x.2) with
    | none => s
    | some (t, old) =>
      if 0 < s.activationsOn tenant core kid k.gen old then s
      else s.modKernel tenant kid fun k => k.modStage t fun g =>
        { g with joining := g.joining.filter (·.1 != core), cores := g.cores ++ [core] }
def execGaitCoreRebind (tenant : BitVec 12) (kid : BitVec 6) (core : Nat) (s : State) : Host.Outcome State Fault Refusal :=
  .next (s.rebind tenant kid core)

/-- KERNEL_RETIRE (R279). -/
def execKernelRetire (tenant : BitVec 12) (kid : BitVec 6) (s : State) : Host.Outcome State Fault Refusal := .next (s.retire tenant kid)

end Sys2Proof.Machine
end

