-- ==== Sys2Proof/Machine/Memory.lean ====
section
/-! DEFINITION. The scalar memory instructions (R92 to R107): loads, stores, atomics, the fence and the publication fence. -/

namespace Sys2Proof.Machine

open Sys2Proof

/-- The integer type of a width code w of LD, ST, AMO and CAS (R54, R101). -/
def fmtOfW (m : BitVec 3) : Fmt :=
  match m with
  | 0 => .n8 | 1 => .n16 | 2 => .n32 | 3 => .n64 | 4 => .i8 | 5 => .i16 | 6 => .i32 | _ => .i64
/-- Bytes of a width code. -/
def bytesOfW (m : BitVec 3) : Nat := Fmt.width (fmtOfW m) / 8

/-- LD (R92, R93, R98). -/
def execLd (o : Ops) (s : State) : Host.Outcome State Fault Refusal :=
  s.run (.ld o) (do
    let x ← s.srcA o
    let n := bytesOfW o.m
    let va := x + o.imm10
    let l ← s.loadLoc { ctr := if n = 8 then .allow else .deny } va n
    ((s.noteError va l n).acquire o).complete o (extend (fmtOfW o.m) (s.loaded l n)))

/-- ST (R92, R94). -/
def execSt (o : Ops) (s : State) : Host.Outcome State Fault Refusal :=
  s.run (.st o) (do
    let x ← s.srcA o
    let y ← s.srcD o
    let n := bytesOfW o.m
    let l ← s.storeAt {} (x + o.imm10) n
    let s1 ← s.tracedStore (x + o.imm10) l n (y.toNat % 2 ^ (8 * n))
    .ok (((if o.x.pd then (s1.take o).pop o.d else s1.take o)).advance o))

/-- The new value of an AMO (R101): `t` is the type of the operands. -/
def amoResult (k : AmoOp) (t : Fmt) (old y : Nat) : Nat :=
  match k with
  | .swap => y
  | .add => (old + y) % 2 ^ Fmt.width t
  | .and => old &&& y
  | .or => old ||| y
  | .xor => old ^^^ y
  | .min => if valOf t y < valOf t old then y else old
  | .max => if valOf t old < valOf t y then y else old

/-- The checked location of an atomic access of `n` bytes, which needs R and W (R101). -/
def State.atomicAt (s : State) (va : Word) (n : Nat) : Except Stop Loc := do
  need (va.toNat % n == 0) (Stop.alignment va)
  let l ← s.access { r := true, w := true } va
  s.notHaltered l
  .ok l

/-- AMO (R101). -/
def execAmo (k : AmoOp) (o : Ops) (s : State) : Host.Outcome State Fault Refusal :=
  s.run (.amo k o) (do
    let va ← s.srcA o
    let y ← s.srcB o
    let t := fmtOfW o.m
    let n := bytesOfW o.m
    let l ← s.atomicAt va n
    let old := s.loaded l n
    let s1 ← (s.noteError va l n).tracedStore va l n (amoResult k t old (y.toNat % 2 ^ (8 * n)))
    (s1.acquire o).complete o (extend t old))

/-- CAS (R102). -/
def execCas (o : Ops) (s : State) : Host.Outcome State Fault Refusal :=
  s.run (.cas o) (do
    let va ← s.srcA o
    let y ← s.srcB o
    let z ← s.srcC o
    let t := fmtOfW o.m
    let n := bytesOfW o.m
    let l ← s.atomicAt va n
    let old := s.loaded l n
    let s1 ← (s.noteError va l n).traced l
    let s2 ← if old = y.toNat % 2 ^ (8 * n) then s1.storeLoc va l n (z.toNat % 2 ^ (8 * n)) else .ok s1
    (s2.acquire o).complete o (extend t old))

/-- FAMO (R104): m 0 is FP32, m 1 is BF16. -/
def execFamo (o : Ops) (s : State) : Host.Outcome State Fault Refusal :=
  s.run (.famo o) (do
    let va ← s.srcA o
    let y ← s.srcB o
    let f := ffmt (if o.m = 0 then .fp32 else .bf16)
    let n := if o.m = 0 then 4 else 2
    let l ← s.atomicAt va n
    let old := s.loaded l n
    let r := f.result (addNum (f.decode old) (f.decode (y.toNat % 2 ^ (8 * n))))
    let s1 ← (s.noteError va l n).tracedStore va l n r.1
    ((s1.flag r.2).acquire o).complete o (BitVec.ofNat 64 old))

/-- FENCE (R105): the accesses of the task have performed in order, so the fence leaves its acquire's generation (R147), orders its
stores before later kicks (R162), and advances; ord 0b00 has the effect of 0b11. DESIGN CHOICE: assumption 5. -/
def execFence (o : Ops) (s : State) : Host.Outcome State Fault Refusal :=
  let s1 := if o.x.ord = .rel then s else s.acquireAt s.task.core o.x.sc
  .next ((if o.x.ord = .acq then s1 else s1.order o.x.sc).advance o)

/-- Clear every mark that names a task (R329). -/
def State.clearMarks (s : State) (tid : Tid) : State := { s with marks := s.marks.filter (·.tid != some tid) }

/-- PUBC (R106, R329): the task's code stores have marked; every mark that names it is cleared. -/
def execPubc (o : Ops) (s : State) : Host.Outcome State Fault Refusal := .next ((s.clearMarks s.task.tid).advance o)

end Sys2Proof.Machine
end

