-- ==== Sys2Proof/Machine/Page.lean ====
section
/-! DEFINITION. Translation and demand paging (R319 to R338): TLBI and PROBE, page walks, code-dirty marks, the demand-paging
fault and the resume of its record. -/

namespace Sys2Proof.Machine

open Sys2Proof

/-! ### TLBI (R325, R327, R337) -/

/-- Does the reach of a scope, seen from a core, hold the TLB of a place, or the core of that number (R100, R337)? -/
def reaches (core : Nat) (sc : Scope) (place : Nat) : Bool :=
  let cl := if 10000 ≤ place then place - 10000 else place / 8
  match sc with
  | .c => place == core
  | .k => cl == core / 8
  | .d => cl / 288 == core / 2304
  | _ => true
/-- Does the reach of a scope hold the walker pool of a die? -/
def reachesPool (core : Nat) (sc : Scope) (die : Nat) : Bool :=
  match sc with | .c | .k => false | .d => die == core / 2304 | _ => true

/-- The address space of an ASID in a paddock: that of a task that has it, or one given to a virtual function (R380).
DEDUCED: assumption 54. -/
def State.spaceOf (s : State) (tenant : BitVec 12) (asid : BitVec 12) : Option Word :=
  let has (x : Word) : Bool := x.extractLsb' 52 12 == asid
  match s.tasks.find? fun t => t.cstate != .free && t.tenant == tenant && has t.aspace with
  | some t => some t.aspace
  | none => (s.paddock tenant).bind fun p => (p.cfg.aspaces.find? fun e => has e.2).map (·.2)

/-- The cached form of a leaf that a walk has found: of a contiguous group, its first leaf (R323). -/
def leafEntry (place : Nat) (asid : BitVec 12) (va : Nat) (e : Word) (level bits pa : Nat) : TlbEntry :=
  { place := place, asid := asid, va := va / 2 ^ bits * 2 ^ bits, bits := bits, pa := pa / 2 ^ bits * 2 ^ bits
    leaf := e - BitVec.ofNat 64 (va % 2 ^ bits / 2 ^ levelBits level * 2 ^ levelBits level) }
/-- The pages, whatever their sizes, that map an address of an ASID: cached ones, and the one that a walk finds now. -/
def State.pages (s : State) (asid : BitVec 12) (va : Nat) : List TlbEntry :=
  (s.tlb.filter fun e => e.asid == asid && e.va / 2 ^ e.bits == va / 2 ^ e.bits) ++
    match s.spaceOf s.task.tenant asid with
    | none => []
    | some x =>
      match s.walk (s.feat s.task.tenant 1) { s.task.who with aspace := x } va with
      | .leaf e level bits => [leafEntry 0 asid va e level bits (leafPa e level va)]
      | _ => []

/-- What a TLBI matches: cached translations, table entries that walker pools cache, and lines in a stash, by ASID, virtual address and
physical line. -/
structure Tlbi where
  leaf  : TlbEntry → Bool
  table : WalkEntry → Bool
  stash : BitVec 12 → Nat → Nat → Bool

/-- The ASID and the virtual address of a line in a core's stash (R140, R142). -/
def Core.stashVa (c : Core) (x : Line) : BitVec 12 × Nat :=
  let w := c.stash.toList.getD x.entry.toNat 0
  ((c.stashSpace.toList.getD x.entry.toNat 0).extractLsb' 52 12,
   stashVbase w * 4096 + ((x.index.toNat - 256 * c.scr) * 64 - stashLoff w * 4096))
/-- A dirty stash line is written back to the L2 of its die, and stays. -/
def State.cleanLine (s : State) (core line : Nat) : State :=
  (s.setLine core line { s.line core line with dirty := false }).setL2Dirty (core / 2304) line true

/-- Drop what a TLBI matches within its reach; dirty stash lines of the pages are written back (R142, R337).
DESIGN CHOICE: assumption 6. -/
def State.dropTlb (s : State) (core : Nat) (sc : Scope) (h : Tlbi) : State :=
  let s1 := s.cores.foldl (fun s c =>
    if reaches core sc c.1 then
      (c.2.lines.filter fun x => x.2.place == .stash && x.2.dirty &&
        (let v := c.2.stashVa x.2; h.stash v.1 v.2 x.1)).foldl (fun s x => s.cleanLine c.1 x.1) s
    else s) s
  { s1 with tlb := s1.tlb.filter fun e => !(reaches core sc e.place && h.leaf e)
            walkCache := s1.walkCache.filter fun e => !(reachesPool core sc e.die && h.table e) }
/-- TLBI of the executing task: it acts as a FENCE.rel, drops, and ends. -/
def State.tlbi (s : State) (o : Ops) (h : Tlbi) : State :=
  (((s.order o.x.sc).dropTlb s.task.core o.x.sc h).take o).advance o
/-- What TLBI.va matches: the leaf of an address, whatever its size, the table entries on its path, and stash lines of its pages. -/
def tlbiVa (pages : List TlbEntry) (asid : BitVec 12) (va : Nat) : Tlbi where
  leaf e := e.asid == asid && e.va / 2 ^ e.bits == va / 2 ^ e.bits
  table e := e.asid == asid && e.tag == va / 2 ^ levelBits e.level
  stash a v _ := a == asid && (v / 4096 == va / 4096 || pages.any fun e => e.va / 2 ^ e.bits == v / 2 ^ e.bits)

/-- TLBI.va (R337). -/
def execTlbiVa (o : Ops) (s : State) : Host.Outcome State Fault Refusal :=
  s.run (.tlbiVa o) (do
    s.needSup
    let a ← s.srcA o
    let b ← s.srcB o
    need (decide (a.toNat < 2 ^ 48)) Stop.illegalOperand
    .ok (s.tlbi o (tlbiVa (s.pages (b.setWidth 12) a.toNat) (b.setWidth 12) a.toNat)))
/-- TLBI.as (R337). -/
def execTlbiAs (o : Ops) (s : State) : Host.Outcome State Fault Refusal :=
  s.run (.tlbiAs o) (do
    s.needSup
    let a ← s.srcA o
    let asid : BitVec 12 := a.setWidth 12
    .ok (s.tlbi o { leaf := (·.asid == asid), table := (·.asid == asid), stash := fun x _ _ => x == asid }))
/-- TLBI.frm (R327, R337): the frame's code bit is cleared as well. -/
def execTlbiFrm (o : Ops) (s : State) : Host.Outcome State Fault Refusal :=
  s.run (.tlbiFrm o) (do
    s.needSup
    let a ← s.srcA o
    need (decide (a.toNat < 2 ^ 39)) Stop.illegalOperand
    let f := a.toNat / 4096
    let h : Tlbi := { leaf := fun e => e.maps (4096 * f), table := fun _ => false
                      stash := fun a v l => l / 64 == f || (s.pages a v).any (·.maps (4096 * f)) }
    let s1 := s.tlbi o h
    .ok { s1 with codeBits := smapSet false s1.codeBits f false })
/-- TLBI.all (R337). -/
def execTlbiAll (o : Ops) (s : State) : Host.Outcome State Fault Refusal :=
  s.run (.tlbiAll o) (do
    s.needSup
    .ok (s.tlbi o { leaf := fun _ => true, table := fun _ => true, stash := fun _ _ _ => true }))

/-! ### PROBE (R338) -/

/-- SZ of a leaf. -/
def probeSize (bits : Nat) : BitVec 3 := if bits = 12 then 0 else if bits = 16 then 1 else if bits = 21 then 2 else if bits = 25 then 3 else 4
/-- The image of PROBE for a leaf. -/
def probeImage (fk : BitVec 3) (bits : Nat) (e : Word) (pa : Nat) : Word :=
  BitVec.ofBool (fk != 0) ++ fk ++ probeSize bits ++ pteMode e ++ (BitVec.ofBool (pteCtr e) ++ BitVec.ofBool (pteRep e) ++
    BitVec.ofBool (pteTlk e) ++ BitVec.ofBool (pteX e) ++ BitVec.ofBool (pteW e) ++ BitVec.ofBool (pteR e) : BitVec 6) ++ 0#10 ++
    BitVec.ofNat 39 pa
/-- The image where there is no leaf. DEDUCED: assumption 54. -/
def probeNone (fk : BitVec 3) : Word := 1#1 ++ fk ++ 0#60

/-- PROBE of an address for an access (R338); it waits where the walk waits for a frame in transit, a halter or a link.
DEDUCED: assumption 54. -/
def State.probe (s : State) (w : Who) (n : Want) (va : Word) : Except Stop Word :=
  if va.extractLsb' 48 16 ≠ 0 then .ok (probeNone 1)
  else if scratchBase ≤ va.toNat then
    if (s.core w.core).scratchBytes ≤ va.toNat - scratchBase then .ok (probeNone 1)
    else .ok <|
      let x := Config.probeScratch s.free
      let fk : BitVec 3 := if scratchPermitted n then 0 else 3
      BitVec.ofBool (fk != 0) ++ fk ++ x.extractLsb' 41 3 ++ x.extractLsb' 39 2 ++ 3#6 ++ 0#10 ++ x.extractLsb' 0 39
  else match s.lookup w va with
  | .absent _ dp => .ok (if dp && s.feat w.tenant 0 then probeNone 2 else probeNone 1)
  | .malformed => .ok (probeNone 5)
  | .unreadable => .ok (probeNone 1)
  | .transit k => .error (.wait (.transit k (w.die != (s.stack k.toNat).owner.toNat) 0))
  | .busy => .error (.wait .retry)
  | .leaf e level bits =>
    let pa0 := leafPa e level va.toNat
    let copy := if pteRep e then s.copyFor w e else none
    let pa := match copy with | some c => withStack pa0 (pteStk e c) | none => pa0
    let fk : BitVec 3 :=
      if permitted w.sup n e = false then 3
      else if pteRep e then (if copy.isSome then 0 else 4)
      else if (s.stack (stackOf pa0)).reachable w.die then 0 else 4
    .ok (probeImage fk bits e pa)

/-- PROBE of the executing task. DEDUCED: assumption 54. -/
def State.probeFor (s : State) (i : Instr) (o : Ops) (n : Want) : Host.Outcome State Fault Refusal :=
  s.run i (do
    let a ← s.srcA o
    let b ← s.srcB o
    need (b == 0 || b.getLsbD 63) Stop.illegalOperand
    if b = 0 then do
      let x ← s.probe s.task.who n a
      s.complete o x
    else do
      s.needSup
      match if s.task.aspace.extractLsb' 52 12 = b.setWidth 12 then some s.task.aspace else s.spaceOf s.task.tenant (b.setWidth 12) with
      | some x => do
        let y ← s.probe { s.task.who with aspace := x } n a
        s.complete o y
      | none => s.complete o (Config.probeUnknown s.free))
/-- PROBE.r (R338). -/
def execProbeR (o : Ops) (s : State) : Host.Outcome State Fault Refusal := s.probeFor (.probeR o) o { r := true, ctr := .allow }
/-- PROBE.w (R338). -/
def execProbeW (o : Ops) (s : State) : Host.Outcome State Fault Refusal := s.probeFor (.probeW o) o { w := true }
/-- PROBE.x (R338). -/
def execProbeX (o : Ops) (s : State) : Host.Outcome State Fault Refusal := s.probeFor (.probeX o) o { x := true }

/-! ### Walks (R320 to R327) -/

/-- What a full cache of translations keeps where one more comes: which entry leaves is open. DESIGN CHOICE: assumption 6. -/
def State.makeRoom {α : Type} (s : State) (size : Nat) (l : List α) : List α :=
  if l.length < size then l else l.eraseIdx (Config.freeChoice s.free % l.length)
/-- A TLB of a number of entries caches a translation. -/
def State.cacheLeaf (s : State) (size : Nat) (x : TlbEntry) : State :=
  { s with tlb := x :: s.makeRoom size (s.tlb.filter fun y => y.place == x.place && y != x) ++ s.tlb.filter (·.place != x.place) }
/-- Install the translation of a leaf that a walk found in the micro-TLB of a core and the TLB of its cluster (R324).
DESIGN CHOICE: assumption 6. -/
def State.install (s : State) (core : Nat) (asid : BitVec 12) (va : Nat) (e : Word) (level bits pa : Nat) : State :=
  (s.cacheLeaf 2048 (leafEntry (10000 + core / 8) asid va e level bits pa)).cacheLeaf 32 (leafEntry core asid va e level bits pa)

/-- The table entries above the leaf that a walk of an address has read or found in its pool, with their levels. -/
def State.path (s : State) (rep : Bool) (w : Who) (va : Nat) : Nat → Nat → Nat → List (Nat × Word)
  | 0, _, _ => []
  | fuel + 1, level, frame =>
    match s.cachedTable w level va with
    | some e => (level, e) :: State.path s rep w va fuel (level + 1) (pteFrame e)
    | none =>
      let e : Word := BitVec.ofNat 64 (s.mem.read (frame * 4096 + 8 * (va / 2 ^ levelBits level % 512)) 8)
      if pteV e && !pteMalformed rep level e && !pteLeaf e then (level, e) :: State.path s rep w va fuel (level + 1) (pteFrame e) else []
/-- The walker pool of a die caches a table entry, of 256 (R324). -/
def State.cacheTable (s : State) (x : WalkEntry) : State :=
  let same (y : WalkEntry) : Bool := x.asid == y.asid && x.level == y.level && x.tag == y.tag
  { s with walkCache := x :: s.makeRoom 256 (s.walkCache.filter fun y => y.die == x.die && !same y) ++
                          s.walkCache.filter (·.die != x.die) }
/-- The walker pool of a die caches the table entries of a walk. DESIGN CHOICE: assumption 6. -/
def State.cacheTables (s : State) (rep : Bool) (w : Who) (va : Nat) : State :=
  (s.path rep w va 4 1 (w.aspace.extractLsb' 12 27).toNat).foldl (fun s x =>
    s.cacheTable { die := w.die, asid := w.aspace.extractLsb' 52 12, level := x.1, tag := va / 2 ^ levelBits x.1, entry := x.2 }) s

/-- PAGE_WALK (R324, R327): a miss of a core is walked for; the pool of its die caches the table entries, and a leaf it finds is
installed; one with X sets the code bits of its frames first. -/
def State.pageWalk (s : State) (core : Nat) (aspace va : Word) (fetch : Bool) : State :=
  match s.paddocks.find? (·.hasCore core) with
  | none => s
  | some p =>
    let rep := p.feat.getLsbD 1
    let w : Who := { core := core, aspace := aspace, sup := true, tenant := p.cfg.tenant }
    if va.extractLsb' 48 16 ≠ 0 ∨ scratchBase ≤ va.toNat then s
    else match s.walk rep w va.toNat with
    | .leaf e level bits =>
      let pa0 := leafPa e level va.toNat
      let pa := if pteRep e then (match s.copyFor w e with | some c => withStack pa0 (pteStk e c) | none => pa0) else pa0
      if fetch && !pteX e then s
      else ((if pteX e then s.installX pa bits else s).cacheTables rep w va.toNat).install core (aspace.extractLsb' 52 12)
        va.toNat e level bits pa
    | _ => s
/-- The walks that tasks wait for (R327). -/
def State.walkWork (s : State) : State :=
  s.tasks.foldl (fun s t => match t.wait with
    | .walk va => if t.cstate = .waiting then s.pageWalk t.core t.aspace va false else s
    | _ => s) s
def execPageWalk (core : Nat) (aspace va : Word) (fetch : Bool) (s : State) : Host.Outcome State Fault Refusal :=
  .next (s.pageWalk core aspace va fetch)

/-! ### Code-dirty marks (R328, R330) -/

/-- CODE_STORE_MARK (R328): a code store of a task marks its line. -/
def execCodeStoreMark (tid : BitVec 48) (die : BitVec 2) (pa : Nat) (s : State) : Host.Outcome State Fault Refusal :=
  .next (if s.isCode pa then (s.mark tid die.toNat (lineOf pa)).getD s else s)

/-- The first word of the instruction at the program counter, 0 where it cannot be fetched. -/
def State.wordAtPc (s : State) : BitVec 32 := match s.fetch with | .ok (_, ws) => ws.headD 0 | .error _ => 0

/-- CODE_STORE_MARK_TIMEOUT (R328): after 65,536 clks of waiting the store is abandoned with the resource-exhaustion trap. -/
def State.markTimeout (s : State) : State :=
  match s.task.wait with
  | .mark l c =>
    if s.task.cstate = .waiting ∧ c + 65536 ≤ s.clk then
      let s1 := s.letGo s.task
      let s2 := s1.setTask { s1.task with tile := none }
      s2.trap { kind := 10, detail := 7, info0 := s.wordAtPc.setWidth 64, info1 := BitVec.ofNat 64 (64 * l) }
    else s
  | _ => s
def execCodeStoreMarkTimeout (tid : BitVec 48) (s : State) : Host.Outcome State Fault Refusal := .next (s.asTask tid State.markTimeout)

/-- MKCLR (R330): clear the marks of a TID of the paddock. -/
def State.mkclr (s : State) (v : Word) : Except Stop State := do
  s.needSup
  need (v.extractLsb' 48 16 == 0 && v.extractLsb' 36 12 == s.task.tenant) Stop.illegalOperand
  .ok (s.clearMarks (v.setWidth 48))

/-! ### Demand paging (R332 to R335) -/

/-- What the accesses of the record codes 1 to 3 need (R334). -/
def wantOf (code : BitVec 8) : Want := if code = 2 then { w := true } else if code = 3 then { x := true } else { r := true }

/-- DEMAND_PAGING_FAULT (R332): an access of the executing task finds an entry with V = 0 and DP = 1. -/
def execDemandPagingFault (va : Word) (code : BitVec 8) (s : State) : Host.Outcome State Fault Refusal :=
  .next (if s.task.cstate = .running then
      match s.check s.task.who (wantOf code) va with
      | .error (.paging level) => s.parkGroup va level code
      | _ => s
    else s)

/-- A stream that faulted on a page that is now filled (R192). DEDUCED: assumption 31. -/
def Stream.fill (page : Nat) (saved : Bool) (r : Stream) : Stream :=
  if r.state == .faulted && r.fcode == 5 && r.faultInfo.toNat / 4096 == page then
    if saved then { r with filled := true } else r.refilled
  else r
/-- A task of a park set restarts once no record still holds it. DEDUCED: assumption 55. -/
def Task.unpark (t : Task) : Task :=
  { t with parked := false, cstate := if t.cstate = .parked then .running else t.cstate }

/-- Resume one task of a record's park set (R335): an acquire at .p. -/
def State.resumeTask (s : State) (page : Nat) (tid : Tid) : State :=
  match s.findTask tid with
  | none => s
  | some t =>
    let held := s.paddocks.any fun p => p.vfs.any fun e => e.2.paging.any fun r => r.tids.contains tid
    let saved := t.saved.isSome
    let f (t : Task) : Task :=
      let u := { t with streams := t.streams.map (Stream.fill page saved) }
      if held then u else u.unpark
    let s1 := s.modTask tid f
    let s2 := if held then s1 else s1.reword tid fun w => w &&& ~~~(0x80000 : Word)
    if t.inSlot then s2.acquireAt t.core .p else s2

/-- The windows of a copy command that are parked on a page of an address space. -/
def Copy.fill (tenant asid : BitVec 12) (page : Nat) (c : Copy) : Copy :=
  if c.tenant == tenant && c.aspace.extractLsb' 52 12 == asid then
    { c with windows := c.windows.map fun w => if w.parked = some page then { w with filled := true } else w }
  else c

/-- A resume of the record with a number (R335). DEDUCED: assumption 55. -/
def State.resume (s : State) (tenant : BitVec 12) (v : Nat) (seq : BitVec 32) : State :=
  match s.paddock tenant with
  | none => s
  | some p =>
    match (p.vf v).paging.find? (·.seq == seq) with
    | none => s
    | some r =>
      let s1 := s.modVf tenant v fun f => { f with paging := f.paging.filter (·.seq != seq) }
      let s2 : State := { s1 with clusters := smapMap {} s1.clusters fun _ c => { c with copies := c.copies.map (Copy.fill tenant r.asid r.page) } }
      r.tids.foldl (fun s tid => s.resumeTask r.page tid) s2

/-- PFRES (R335): for a supervisor task. -/
def State.pfres (s : State) (v : Word) : Except Stop State := do
  s.needSup
  .ok (s.resume s.task.tenant (v.extractLsb' 32 6).toNat (v.setWidth 32))

/-- The oldest resume that a virtual function has taken, a release at .p of the host, acts once the host's earlier writes have performed
(R335). -/
def State.takeResume (s : State) (tenant : BitVec 12) (v : Nat) : State :=
  match s.paddock tenant with
  | none => s
  | some p =>
    match (p.vf v).resumes with
    | [] => s
    | x :: l =>
      if s.hostPending tenant x.2 then s
      else (s.modVf tenant v fun f => { f with resumes := l }).resume tenant v x.1
/-- DOORBELL_RESUME (R335, R365). -/
def execDoorbellResume (tenant : BitVec 12) (vf : BitVec 6) (seq : BitVec 32) (s : State) : Host.Outcome State Fault Refusal :=
  .next (match s.doorbell tenant vf.toNat true with
    | none => s
    | some _ =>
      (s.modVf tenant vf.toNat fun f => { f with resumes := f.resumes ++ [(seq, s.clk)] }).takeResume tenant vf.toNat)

end Sys2Proof.Machine
end

