-- ==== Sys2Proof/Machine/Debug.lean ====
section
/-! DEFINITION. Debug, trace and replay (R252, R368 to R374): debug stops, profiles and monitors, trace rings and replay. -/

namespace Sys2Proof.Machine

open Sys2Proof

/-! ### The debug queue and debug stops (R252, R368, R369) -/

/-- Who writes the debug queue of a paddock: the device, in the supervisor's address space. DEDUCED: assumption 40. -/
def Paddock.debugWho (p : Paddock) : Who :=
  { core := 2304 * p.firstDie, aspace := p.cfg.aspace, sup := true, tenant := p.cfg.tenant }

/-- The oldest record that waits goes to the debug queue, once the ring has room. -/
def State.flushDebug (s : State) (tenant : BitVec 12) : State :=
  match s.paddock tenant with
  | none => s
  | some p =>
    match p.dbgBuf with
    | [] => s
    | x :: rest =>
      match s.ringPut p.debugWho p.dbgq x with
      | none => s
      | some (s1, _) => s1.modPaddock tenant fun p => { p with dbgBuf := rest }

/-- Post a record to the debug queue of a paddock. -/
def State.debugPost (s : State) (tenant : BitVec 12) (x : BitVec 512) : State := (s.debugAppend tenant x).flushDebug tenant

/-- The halt and the save of a debug stop: the task becomes pre-empted. -/
def State.stopTask (s : State) (tid : Tid) : State :=
  match s.findTask tid with
  | none => s
  | some t => ((s.haltTask tid).saveTask tid .preempted t.core).modTask tid fun t => { t with stopDue := none }

/-- A debug stop of a task by entry n (R369): the halt, and the save with the stop record after it. -/
def State.debugStop (s : State) (tid : Tid) (n : Nat) : State :=
  match s.findTask tid with
  | none => s
  | some t => ((s.modTask tid fun t => { t with stopRec := some n }).stopTask tid).flushDebug t.tenant

/-- The entry that stops a task of a slot now: for a task that waits or is parked, a due one or one of KIND 3. -/
def State.stopOf (s : State) (t : Task) : Option Nat :=
  if t.cstate = .running then s.stopNow t
  else if t.cstate = .waiting ∨ t.cstate = .parked then lowerEntry t.stopDue (s.stopEntry t fun k _ => k == 3)
  else none

/-- STOP_MATCH (R369). -/
def execStopMatch (tid : BitVec 48) (s : State) : Host.Outcome State Fault Refusal :=
  .next (match s.findTask tid with
    | none => s
    | some t => match s.stopOf t with | none => s | some n => s.debugStop tid n)

/-- Is a debug feature open to a debugger of a paddock (R375, R377): under LCS 0 every one, under LCS 1 a granted one?
DEDUCED: assumption 57. -/
def State.debugOpen (s : State) (tenant : BitVec 12) (bit : Nat) : Bool :=
  s.boot.lcs == 0 || (s.boot.lcs == 1 && s.boot.features.any fun g => g.1.getLsbD bit && (g.2 == tenant.setWidth 16 || g.2 == 0xFFF))

/-- The entry of a debugger that is attached to the executing task for BKPT (R252, R369). DEDUCED: assumption 57. -/
def State.breakEntry (s : State) : Option Nat :=
  if s.debugOpen s.task.tenant 0 then s.stopEntry s.task fun k _ => k == 2 else none

/-- BKPT (R252): a debug stop where a debugger is attached, else a trap; either way the PC saved is the next instruction's.
DEDUCED: assumption 57. -/
def execBkpt (o : Ops) (s : State) : Host.Outcome State Fault Refusal :=
  match s.breakEntry with
  | none => .next (s.trapAt { kind := 13, info0 := (o.imm.setWidth 13).signExtend 64 } (s.task.pc + BitVec.ofNat 64 o.len.bytes))
  | some n =>
    let s1 := s.advance o
    let m := (lowerEntry (s1.stopNow s1.task) (s1.stopEntry s1.task fun k _ => k == 1)).getD n
    .next (s1.debugStop s.task.tid (min n m))

/-! ### Profiles and monitors (R370 to R372) -/

/-- A sum of a profile or a count of a monitor saturates at 2^64 − 1. -/
def satAdd (x : Word) (n : Nat) : Word := BitVec.ofNat 64 (min (x.toNat + n) (2 ^ 64 - 1))

/-- Add a message to an entry's sums. -/
def Prof.add (p : Prof) (transit wait run : BitVec 32) : Prof :=
  let w (i : Nat) : Word := p.words.getD i 0
  { p with words := [satAdd (w 0) 1, satAdd (w 1) transit.toNat, satAdd (w 2) wait.toNat, satAdd (w 3) run.toNat] }

/-- The profile table after a message of a sender (R371): its entry, a new one, or entry 31 when every entry is taken.
DEDUCED: assumption 66. -/
def profileAdd (l : List Prof) (rank : BitVec 20) (transit wait run : BitVec 32) : List Prof :=
  match l.findIdx? (·.key == rank) with
  | some i => l.modify i (·.add transit wait run)
  | none =>
    if l.length < 32 then l ++ [({ key := rank, words := [] } : Prof).add transit wait run]
    else l.modify 31 fun p => { p.add transit wait run with key := 0xFFFFF }

/-- PROFILE_UPDATE (R371): a message that the core has consumed enters its profile table. DEDUCED: assumption 66. -/
def execProfileUpdate (core : Nat) (rank : BitVec 20) (transit wait run : BitVec 32) (s : State) : Host.Outcome State Fault Refusal :=
  let c := s.core core
  .next (if c.consumed.contains (rank, transit, wait, run) then
      s.setCore core { c with consumed := c.consumed.erase (rank, transit, wait, run)
                              profile := profileAdd c.profile rank transit wait run }
    else s)

/-- The bin of a sample (R372). -/
def monitorBin (cfg : Word) (x : Nat) : Nat :=
  let base := (cfg.extractLsb' 8 32).toNat
  if x < base then 0 else min 15 (1 + (x - base) / 2 ^ (cfg.extractLsb' 4 4).toNat)

/-- A sample enters a monitor (R372). DEDUCED: assumption 66. -/
def Monitor.sample (m : Monitor) (x : Nat) : Monitor :=
  let w := BitVec.ofNat 64 x
  { m with least := if m.count = 0 ∨ w.toNat < m.least.toNat then w else m.least
           most := if m.most.toNat < w.toNat then w else m.most
           count := satAdd m.count 1
           bins := m.bins.modify (monitorBin m.cfg x) fun b => satAdd b 1 }
def Cluster.setMonitor (c : Cluster) (n : BitVec 2) (m : Monitor) : Cluster := { c with monitors := c.monitors.set n.toNat m n.isLt }
/-- Is a number a sample of a monitor's source now (R372): the live jobs of the queue, the age of a command whose body is done, the
transit or the wait of a message that a core of the cluster has consumed? Latencies are not modelled, so any number may be one.
DEDUCED: assumption 66. -/
def State.samples (s : State) (cluster : Nat) (src x : Nat) : Bool :=
  let c := s.cluster cluster
  let heard (f : BitVec 20 × BitVec 32 × BitVec 32 × BitVec 32 → BitVec 32) : Bool :=
    (List.range 8).any fun i => (s.core (8 * cluster + i)).consumed.any fun m => (f m).toNat == x
  if src = 2 then x == c.live.length
  else if src = 4 then c.copies.any fun k => k.bodyDone && s.clk - k.since == x
  else if src = 5 then heard fun m => m.2.1
  else if src = 6 then heard fun m => m.2.2.1
  else true
/-- MONITOR_SAMPLE (R372). DEDUCED: assumption 66. -/
def execMonitorSample (cluster : Nat) (n : BitVec 2) (x : Nat) (s : State) : Host.Outcome State Fault Refusal :=
  let c := s.cluster cluster
  let m := c.monitors[n.toNat]'(n.isLt)
  .next (if m.cfg.getLsbD 63 && s.clocked cluster && s.samples cluster (m.cfg.extractLsb' 0 4).toNat x then
      s.setCluster cluster (c.setMonitor n (m.sample x))
    else s)

/-! ### Trace and replay (R373, R374) -/

/-- TRACE_RECORD (R373): an arrival that a home port places is recorded; it is held while the ring is full. A store of a task of the
model records itself (`State.traced`). DEDUCED: assumption 58. -/
def execTraceRecord (tenant : BitVec 12) (port : BitVec 22) (src : BitVec 14) (pa : Word) (s : State) :
    Host.Outcome State Fault Refusal :=
  .next (match s.paddock tenant with
    | none => s
    | some p =>
      if p.traceMode = 1 then
        match s.traceRing p port with
        | none => s
        | some r => (s.traceWrite p port r src pa).getD s
      else s)

/-- Place the arrivals that match the next entries: `arrivals` are those held and, last, the new one (R374). -/
def State.placeArrivals (s : State) (p : Paddock) (port : BitVec 22) (r : Ring) :
    Nat → Nat → List (BitVec 14 × Word) → Nat × List (BitVec 14 × Word)
  | 0, rp, l => (rp, l)
  | fuel + 1, rp, l =>
    if rp < r.wp then
      match l.find? (traceMatch (s.traceAt p port r rp)) with
      | some a => State.placeArrivals s p port r fuel (rp + 1) (l.erase a)
      | none => (rp, l)
    else (rp, l)

/-- The divergence record (R374). -/
def divergenceRecord (port : BitVec 22) (e : BitVec 128) (src : BitVec 14) (pa : Word) : BitVec 512 :=
  (0#256 ++ pa ++ tracePa e ++ 0#14 ++ src ++ traceSrc e ++ port ++ e.extractLsb' 0 32 ++ 0#24 ++ 0x20#8 : BitVec 512)

/-- The trace mode of a paddock goes off: held arrivals are placed (R374). -/
def State.traceOff (s : State) (tenant : BitVec 12) : State :=
  let s1 := s.modPaddock tenant fun p => { p with dbgctl := p.dbgctl &&& ~~~(3 : Word) }
  { s1 with tracePorts := smapMap {} s1.tracePorts fun k x => if k / 2 ^ 22 = tenant.toNat then { x with held := [] } else x }

/-- A divergence (R374): its record, then by POL a stop of every task of the paddock, or tracing goes off.
DEDUCED: assumption 58. -/
def State.diverge (s : State) (p : Paddock) (port : BitVec 22) (e : BitVec 128) (src : BitVec 14) (pa : Word) : State :=
  let tenant := p.cfg.tenant
  let s1 := s.debugPost tenant (divergenceRecord port e src pa)
  if p.dbgctl.getLsbD 2 then s1.traceOff tenant
  else (s1.tasks.filter fun t => t.tenant == tenant).foldl
    (fun s t => if t.inSlot then s.stopTask t.tid else if t.cstate = .ready then s.unready t.tid else s) s1

/-- Arrivals of the tasks of a paddock that a home port holds. -/
def State.heldStores (s : State) (tenant : BitVec 12) (port : BitVec 22) : Nat :=
  ((s.tasks.filter fun u => u.tenant == tenant).flatMap fun u => u.heldArrivals.filter (·.1 == port)).length
/-- Does an arrival of a task that a port holds in replay show a divergence (R374): it matches none of the next eight entries, or it is the
eighth that the port holds? With the ring as it stands. -/
def State.strays (s : State) (p : Paddock) (t : Task) (x : BitVec 22 × Nat × Nat) : Option Ring :=
  match s.traceRing p x.1 with
  | none => none
  | some r =>
    if s.traceNear p x.1 r (BitVec.ofNat 14 t.core, BitVec.ofNat 64 x.2.1) = false ∨
        8 ≤ s.heldStores t.tenant x.1 + (s.tracePort t.tenant x.1).held.length then some r else none
/-- The divergence that a store of a task, or a sink of one of its streams, shows while its port holds it in replay (R374); it waits for
the room of its record. DEDUCED: assumption 58. -/
def State.heldDiverges (s : State) (tid : Tid) : State :=
  match s.findTask tid with
  | none => s
  | some t =>
    match s.paddock t.tenant with
    | none => s
    | some p =>
      if p.traceMode ≠ 2 ∨ t.inSlot = false ∨ s.debugRoom t.tenant = false then s
      else match t.heldArrivals.find? fun x => (s.strays p t x).isSome with
      | none => s
      | some x =>
        match s.strays p t x with
        | none => s
        | some r => s.diverge p x.1 (s.traceAt p x.1 r r.rp) (BitVec.ofNat 14 t.core) (BitVec.ofNat 64 x.2.1)

/-- REPLAY_ARRIVAL (R374). DEDUCED: assumption 58. -/
def State.replay (s : State) (tenant : BitVec 12) (port : BitVec 22) (src : BitVec 14) (pa : Word) : State :=
  match s.paddock tenant with
  | none => s
  | some p =>
    if p.traceMode = 2 then
      match s.traceRing p port with
      | none => s
      | some r =>
        let x := s.tracePort tenant port
        let n := min 8 (r.wp - r.rp)
        let near := (List.range n).any fun k => traceMatch (s.traceAt p port r (r.rp + k)) (src, pa)
        -- an arrival that would show a divergence comes to the port once the record has room
        if s.debugRoom tenant = false ∧ (near = false ∨ 7 ≤ x.held.length) then s
        else if near then
          let out := s.placeArrivals p port r 9 r.rp (x.held ++ [(src, pa)])
          let s1 := (if out.1 = r.rp then s else s.poke (r.pa + 8) 8 out.1).setTracePort tenant port { x with held := out.2 }
          if out.2.length < 8 then s1 else s1.diverge p port (s1.traceAt p port r out.1) src pa
        else (s.setTracePort tenant port { x with held := x.held ++ [(src, pa)] }).diverge p port (s.traceAt p port r r.rp) src pa
    else s
def execReplayArrival (tenant : BitVec 12) (port : BitVec 22) (src : BitVec 14) (pa : Word) (s : State) :
    Host.Outcome State Fault Refusal :=
  .next (s.replay tenant port src pa)

end Sys2Proof.Machine
end

