-- ==== Sys2Proof/Machine/Hand.lean ====
section
/-! DEFINITION. Stacks (R341 to R351): STK.GIVE and STK.STAT, the steps of a reins hand-over, and what the farrier monitor does
with a stack. -/

namespace Sys2Proof.Machine

open Sys2Proof

def StackSt.code : StackSt → BitVec 3 | .owned => 0 | .handing => 1 | .offline => 2 | .scrubbing => 3

/-- Is a stack assigned to a paddock (R341, R350)? -/
def State.assigned (s : State) (k : Nat) (tenant : BitVec 12) : Bool := k < 16 && (s.stack k).tenant == some tenant
/-- Does a paddock hold a cluster of a die? -/
def Paddock.onDie (p : Paddock) (die : Nat) : Bool := p.cfg.rects.any fun r => r.1.toNat == die

/-- Slices of the receiving die that lack room for the home state of a stack's lines (R347, R350): bindings 8, group entries 16
and counter-wait slots 64 per slice. `n` items of stack k lie on a slice at home, `m` are there already. -/
def crowded (k cap : Nat) (there : Nat → Nat) (items : List Nat) : Bool :=
  (items.filter fun q => stackOf q == k).any fun q =>
    decide (cap < ((items.filter fun x => stackOf x == k && sliceOf x == sliceOf q).length + there (sliceOf q)))
/-- Addresses of the counters on which tasks wait in slots (R306). -/
def State.waitAddrs (s : State) : List Nat :=
  s.tasks.filterMap fun t => match t.wait with | .counter q _ none _ => if t.cstate = .waiting then some q else none | _ => none
/-- Items homed, or with room reserved, on a slice of a die. -/
def State.onSlice (s : State) (die slice : Nat) (items : List Nat) : Nat :=
  (items.filter fun q => sliceOf q == slice && (s.homeDie q == die ||
    ((s.stack (stackOf q)).inTransit && s.otherDie (stackOf q) == die))).length
/-- Does the receiving die lack room (status 3 of R350)? -/
def State.lacksRoom (s : State) (k : Nat) : Bool :=
  let die := s.otherDie k
  let boxes := s.mailboxes.map (·.pa)
  let groups := s.groupTab.map (·.pa)
  let waits := s.waitAddrs
  crowded k 8 (fun n => s.onSlice die n boxes) boxes || crowded k 16 (fun n => s.onSlice die n groups) groups ||
    crowded k 64 (fun n => s.onSlice die n waits) waits

/-- The counter of STK.GIVE, checked as R350 says: nothing of it is read, so a frame in transit stalls only a walk of the giving die,
whose walkers mark it (R345). DEDUCED: assumption 56. -/
def State.giveCounter (s : State) (va : Word) : Except Stop Nat :=
  { s with dramStacks := s.dramStacks.mapIdx fun (k : Nat) (x : Stack) =>
      if x.inTransit && s.heldAtHome s.task.who va k then { x with state := .owned } else x }.counterLoc { w := true } va 8

/-- STK.GIVE (R350): it acts as a FENCE.rel. -/
def execStkGive (o : Ops) (s : State) : Host.Outcome State Fault Refusal :=
  s.run (.stkGive o) (do
    s.needSup
    let a ← s.srcA o
    let b ← s.srcB o
    let k := a.toNat
    let dies := match s.paddock s.task.tenant with
      | some p => p.onDie (k / 4) && p.onDie ((k / 4 + 1) % 4)
      | none => false
    need (s.assigned k s.task.tenant && dies) Stop.illegalOperand
    let pa ← s.giveCounter b
    let x := s.stack k
    let s := s.order .p
    if x.state = .handing then s.complete o 1
    else if x.state = .offline ∨ x.state = .scrubbing then s.complete o 2
    else if s.lacksRoom k then s.complete o 3
    else (s.setStack k { x with state := .handing, step := 1, counter := pa }).complete o 0)

/-- The image of STK.STAT (R351). -/
def State.stackImage (s : State) (k : Nat) (tenant : BitVec 12) : Word :=
  if s.assigned k tenant then
    let x := s.stack k
    let giving : BitVec 2 := if x.state = .handing ∧ x.step = 7 then BitVec.ofNat 2 (s.otherDie k) else x.owner
    x.hcnt ++ 0#4 ++ tenant ++ (x.reach ||| (1#4 <<< x.owner.toNat)) ++ 0#1 ++ x.step ++ 0#2 ++ giving ++ 0#1 ++ x.state.code
  else 2
/-- STK.STAT (R351). -/
def execStkStat (o : Ops) (s : State) : Host.Outcome State Fault Refusal :=
  s.run (.stkStat o) (do
    let a ← s.srcA o
    need (decide (a.toNat ≤ 15)) Stop.illegalOperand
    s.complete o (s.stackImage a.toNat s.task.tenant))

/-! ### The hand-over (R344 to R347) -/

/-- Does a line lie on a stack? -/
def lineOn (k line : Nat) : Bool := stackOf (64 * line) == k
/-- A step of the hand-over of a stack, where that step comes next. DEDUCED: assumption 56. -/
def State.handStep (s : State) (k : Nat) (step : BitVec 3) (f : State → State) : State :=
  let x := s.stack k
  if x.state = .handing ∧ x.step = step then
    let s1 := f s
    s1.setStack k { (s1.stack k) with step := step + 1 }
  else s

/-- HANDOVER_MARK: step 1 waits until every held halter of the stack has dropped. DEDUCED: assumption 56. -/
def execHandoverMark (stack : BitVec 4) (s : State) : Host.Outcome State Fault Refusal :=
  .next (if s.halters.any fun h => lineOn stack.toNat h.line then s else s.handStep stack.toNat 1 id)
/-- HANDOVER_DRAIN: every store performs at once in this model, so none is left to drain (DESIGN CHOICE, assumption 5). -/
def execHandoverDrain (stack : BitVec 4) (s : State) : Host.Outcome State Fault Refusal := .next (s.handStep stack.toNat 2 id)

/-- The lines of a stack that a core or the L2 of a die holds dirty. -/
def State.dirtyLines (s : State) (k : Nat) : List Nat :=
  (s.cores.flatMap fun c => (c.2.lines.filter fun x => x.2.dirty && lineOn k x.1).map (·.1)) ++
    (s.l2dirty.map (·.1 % 2 ^ 34)).filter (lineOn k)
/-- A hand-over carries a mark to the new home L3 slice alone, with its TID unless that record was lost (R328, R331).
DESIGN CHOICE: assumption 69. -/
def Mark.carry (free : Nat) (m : Mark) : Mark := { m with die := none, tid := if Config.lostMark free m.line then none else m.tid }
/-- Step 3: copies of the stack's lines are written back and invalidated, and marks move to the receiving die's L3 slices. A dirty line
that has met a soft error is written with poisoned check bits (R348). DESIGN CHOICE: assumption 69. -/
def State.writebackStack (s : State) (k : Nat) : State :=
  let s1 := s.cores.foldl (fun s c => (c.2.lines.filter fun x => lineOn k x.1).foldl (fun s x => s.invalidate c.1 x.1) s) s
  { s1 with
      dir := s.dir.filter fun e => !lineOn k (e.1 % 2 ^ 34)
      l3 := s.l3.filter fun e => !lineOn k (e.1 / 4)
      l2dirty := s.l2dirty.filter fun e => !lineOn k (e.1 % 2 ^ 34)
      poison := ((s.dirtyLines k).filter (Config.softError s.free)).foldl (fun m l => smapSet false m l true) s.poison
      marks := s.marks.map fun m => if lineOn k m.line then m.carry s.free else m }
def execHandoverWriteback (stack : BitVec 4) (s : State) : Host.Outcome State Fault Refusal :=
  .next (s.handStep stack.toNat 3 fun s => s.writebackStack stack.toNat)

/-- Does a cached translation map a frame of a stack, through any of its copies? -/
def TlbEntry.onStack (k : Nat) (e : TlbEntry) : Bool :=
  stackOf e.pa == k || (pteRep e.leaf && (List.range (pteNcopy e.leaf + 1)).any fun c => (pteStk e.leaf c).toNat == k)
/-- HANDOVER_SHOOTDOWN: step 4 drops the giving die's translations of the stack; code bits stay. -/
def execHandoverShootdown (stack : BitVec 4) (s : State) : Host.Outcome State Fault Refusal :=
  .next (s.handStep stack.toNat 4 fun s =>
    { s with tlb := s.tlb.filter fun e => !(placeDie e.place == (s.stack stack.toNat).owner.toNat && e.onStack stack.toNat) })

/-- Does a station lie at a channel controller of a stack (R186)? -/
def atStack (k : Nat) (st : BitVec 2 × Nat) : Bool := decide (160 ≤ st.2) && (st.2 - 160) / 576 == k
/-- A saddlebag at a controller of the stack leaves for the controller of the same channel on the receiving die's side (R187, R344
step 5). -/
def State.hopStation (s : State) (k : Nat) (tid : Tid) (n : BitVec 2) : State :=
  s.onStream tid n fun _ r =>
    match r.station with
    | some st =>
      if r.state = .floated ∧ atStack k st = true then
        (s.putStream tid n (r.leave.hop (BitVec.ofNat 2 (s.otherDie k), st.2))).streamEvent tid n 2
      else s
    | none => s
/-- HANDOVER_PORT_SWITCH: step 5. -/
def execHandoverPortSwitch (stack : BitVec 4) (s : State) : Host.Outcome State Fault Refusal :=
  .next (s.handStep stack.toNat 5 fun s =>
    s.tasks.foldl (fun s t => (List.range 4).foldl (fun s n => s.hopStation stack.toNat t.tid (BitVec.ofNat 2 n)) s) s)

/-- The monitors on the stack's lines end as if a write had performed (R347). -/
def Task.fireStack (k : Nat) (t : Task) : Task :=
  match t.wait with
  | .wfe l c _ r => if lineOn k l then { t with wait := .wfe l c true r } else t
  | .ring l _ => if lineOn k l then { t with wait := .ring l true } else t
  | _ => t
/-- Step 6: the access right flips (R342); the home state moves with the lines, as it is kept by address. -/
def State.flip (s : State) (k : Nat) : State :=
  let x := s.stack k
  let die := s.otherDie k
  let s1 := s.setStack k { x with owner := BitVec.ofNat 2 die
                                  reach := (x.reach ||| (1#4 <<< die)) &&& ~~~(1#4 <<< x.owner.toNat) }
  { s1 with task := s1.task.fireStack k, others := s1.others.map (Task.fireStack k) }
def execHandoverFlip (stack : BitVec 4) (s : State) : Host.Outcome State Fault Refusal :=
  .next (s.handStep stack.toNat 6 fun s => s.flip stack.toNat)

/-- Is a request for the stack's lines that its old home held still to be served at the new one (R345)? DEDUCED: assumption 56. -/
def State.heldStill (s : State) (k : Nat) : Bool := !(s.arrivals k).isEmpty
/-- HANDOVER_COMPLETE: step 7, the release add to the counter whose physical address STK.GIVE captured (R348), after the held requests
(R345); it waits while that counter's own stack is in transit, or for the room of its record (R270). DEDUCED: assumption 56. -/
def execHandoverComplete (stack : BitVec 4) (s : State) : Host.Outcome State Fault Refusal :=
  .next (
    let k := stack.toNat
    let x := s.stack k
    if x.state = .handing ∧ x.step = 7 ∧ (s.stack (stackOf x.counter)).inTransit = false ∧ s.heldStill k = false ∧
        s.addStalls x.counter (x.tenant.getD 0) 1 = false then
      (s.agentAdd x.counter 0 0 (x.tenant.getD 0) 1).setStack k { x with state := .owned, step := 0, hcnt := x.hcnt + 1 }
    else s)

/-! ### The farrier monitor (R341) -/

/-- Can a task of any paddock reach a stack? -/
def State.reached (s : State) (k : Nat) : Bool := s.tasks.any fun t => t.cstate != .free && (s.stack k).reachable t.die

/-- Zeros with correct check bits in every byte of a stack. DESIGN CHOICE: assumption 69. -/
def State.zeroStack (s : State) (k : Nat) : State :=
  { s with mem := s.mem.filter fun e => stackOf e.1 != k, poison := s.poison.filter fun e => !lineOn k e.1 }

/-- An owned stack that no task can reach goes offline (R341). -/
def State.takeOffline (s : State) (k : Nat) : State :=
  if (s.stack k).state = .owned ∧ s.reached k = false then s.setStack k { (s.stack k) with state := .offline, step := 0, tenant := none } else s
/-- An offline stack is scrubbed with zeros (R341). -/
def State.startScrub (s : State) (k : Nat) : State :=
  if (s.stack k).state = .offline then (s.zeroStack k).setStack k { (s.stack k) with state := .scrubbing } else s
/-- STACK_OFFLINE (R341). -/
def execStackOffline (stack : BitVec 4) (s : State) : Host.Outcome State Fault Refusal := .next (s.takeOffline stack.toNat)
/-- STACK_SCRUB (R341). -/
def execStackScrub (stack : BitVec 4) (s : State) : Host.Outcome State Fault Refusal := .next (s.startScrub stack.toNat)
/-- STACK_ASSIGN (R341, R342): a scrubbed stack becomes owned by a paddock's. -/
def execStackAssign (stack : BitVec 4) (tenant : BitVec 12) (reach : BitVec 4) (s : State) : Host.Outcome State Fault Refusal :=
  .next (
    let k := stack.toNat
    let x := s.stack k
    if x.state = .scrubbing then
      s.setStack k { x with state := .owned, tenant := some tenant, reach := reach ||| (1#4 <<< x.owner.toNat) }
    else s)

end Sys2Proof.Machine
end

