-- ==== Sys2Proof/Machine/Boot.lean ====
section
/-! DEFINITION. Bring-up and partitions (R375 to R386): tokens, the boot steps, the paddock block, the supervisor's start,
quotes and partition reset. -/

namespace Sys2Proof.Machine

open Sys2Proof

/-! ### The measurement log (R384) -/

/-- The `n` bytes of a value, byte 0 first. -/
def bytesOf (n v : Nat) : List Byte := (List.range n).map fun i => BitVec.ofNat 8 (v / 256 ^ i)
/-- Bytes `lo` to `lo + n − 1` of a list as a number. -/
def field (l : List Byte) (lo n : Nat) : Nat := ((l.drop lo).take n).foldr (fun b x => b.toNat + 256 * x) 0

/-- A log entry: index, type, tenant, digest. DEDUCED: assumption 25. -/
def logEntry (index : Nat) (ty : BitVec 8) (tenant : BitVec 12) (digest : BitVec 384) : BitVec 512 :=
  (digest ++ 0#76 ++ tenant ++ ty ++ BitVec.ofNat 32 index : BitVec 512)
def logType (e : BitVec 512) : BitVec 8 := e.extractLsb' 32 8
def logTenant (e : BitVec 512) : BitVec 12 := e.extractLsb' 40 12
/-- Append an entry. DEDUCED: assumption 25. -/
def Boot.measure (b : Boot) (ty : BitVec 8) (tenant : BitVec 12) (digest : BitVec 384) : Boot :=
  { b with log := b.log ++ [logEntry b.log.length ty tenant digest] }

/-- The entries that a quote covers: all of them, or those of type 0 and a tenant's own. DEDUCED: assumption 25. -/
def Boot.quoted (b : Boot) (tenant : Option (BitVec 12)) : List (BitVec 512) :=
  b.log.filter fun e => match tenant with | none => true | some t => logType e == 0 || logTenant e == t
/-- QUOTE_REQUEST (R384): the log, then the signature over nonce, BOOTN and log.
DESIGN CHOICE: assumption 23. DEDUCED: assumption 25. DEDUCED: assumption 67. -/
def execQuoteRequest (nonce : BitVec 384) (tenant : Option (BitVec 12)) (s : State) : Host.Outcome State Fault Refusal :=
  let log := (s.boot.quoted tenant).flatMap fun e => bytesOf 64 e.toNat
  let sig := Config.identitySign (Config.sha384 (bytesOf 48 nonce.toNat ++ bytesOf 8 s.boot.bootn.toNat ++ log))
  .next { s with out := log ++ bytesOf 96 sig.toNat }

/-! ### Tokens (R375, R376) -/

/-- DEVID: SHA-384 of the device identity public key (R376). DESIGN CHOICE: assumption 23. -/
def deviceId : BitVec 384 := Config.sha384 (bytesOf 96 Config.identityKey.toNat)
/-- Does a token pass every check? DESIGN CHOICE: assumption 23. -/
def State.tokenGood (s : State) (t : List Byte) : Bool :=
  t.length == 256 && field t 0 8 == 0x4B544744 && s.boot.lcs != 2 && field t 0x10 48 == deviceId.toNat &&
    field t 8 8 == s.boot.bootn.toNat &&
    Config.ecdsaVerify (Config.sha384 (t.take 160)) (BitVec.ofNat 768 (field t 0xA0 96)) Config.debugKey
/-- DEBUG_TOKEN (R376, R377, R384): the features are granted until the next reset; a token that fails changes nothing.
DEDUCED: assumption 67. -/
def execDebugToken (token : List Byte) (s : State) : Host.Outcome State Fault Refusal :=
  .next (if s.tokenGood token then
      let tenant := BitVec.ofNat 16 (field token 0x48 2)
      let b := s.boot.measure 2 (tenant.setWidth 12) (Config.sha384 (token.take 160))
      { s with boot := { b with features := b.features ++ [(BitVec.ofNat 64 (field token 0x40 8) &&& 0x3F, tenant)] } }
    else s)

/-! ### The paddock block and image (R379, R380) -/

/-- The mask of a list of dies. DEDUCED: assumption 25. -/
def dieMask (l : List (BitVec 2)) : Nat := ((List.range 4).filter fun d => l.any (·.toNat == d)).foldl (fun x d => x + 2 ^ d) 0
/-- Reach sets of the stacks in a paddock's configuration. -/
def reachOf (p : PaddockConfig) (k : Nat) : BitVec 4 := p.reach.extractLsb' (4 * k) 4
/-- The stacks assigned to a paddock. -/
def State.stacksOf (s : State) (tenant : BitVec 12) : List Nat := (List.range 16).filter fun k => s.assigned k tenant
/-- The paddock block, as offset and value (R380): its stacks and their reach sets, the owning die's bit among them (R342), as they stand.
DEDUCED: assumption 25. -/
def State.blockParts (s : State) (p : PaddockConfig) : List (Nat × Nat) :=
  [(0x000, p.tenant.toNat + 2 ^ 16 * dieMask p.dies), (0x028, ((s.stacksOf p.tenant).map (2 ^ ·)).foldl (· + ·) 0), (0x030, p.tvec.toNat),
   (0x038, if p.forbid then 1 else 0), (0x040, p.ctxBase.toNat), (0x048, p.ctxCount % 2 ^ 64), (0x050, p.dumpBase.toNat),
   (0x058, p.dumpBytes % 2 ^ 64), (0x060, p.trace.toNat), (0x118, p.vfs.toNat)] ++
  p.rects.map (fun r => (0x008 + 8 * r.1.toNat, r.2.toNat)) ++
  [(0x068, ((s.stacksOf p.tenant).map fun k => ((s.stack k).reach ||| (1#4 <<< (s.stack k).owner.toNat)).toNat * 2 ^ (4 * k)).foldl (· + ·) 0),
   (0x080, (({ cfg := p } : Paddock).poolClusters.map fun c => 2 ^ c).foldl (· + ·) 0)] ++
  p.aspaces.map (fun a => (0x200 + 8 * a.1.toNat, a.2.toNat))
def State.blockValue (s : State) (p : PaddockConfig) : Nat := (s.blockParts p).foldl (fun n x => n + x.2 * 2 ^ (8 * x.1)) 0

/-- Map a page in the tables from `table` down, with frames for the tables that are missing. -/
def mapPage (leaf : Word) (va : Nat) : Nat → Nat → Nat → List Nat → Memory → Memory
  | 0, _, _, _, m => m
  | fuel + 1, level, table, frames, m =>
    let pa := table * 4096 + 8 * (va / 2 ^ levelBits level % 512)
    let e : Word := BitVec.ofNat 64 (m.read pa 8)
    if level = 4 then m.write pa 8 leaf.toNat
    else if pteV e && !pteLeaf e then mapPage leaf va fuel (level + 1) (pteFrame e) frames m
    else match frames with
    | [] => m
    | f :: rest => mapPage leaf va fuel (level + 1) f rest (m.write pa 8 (4096 * f + 1))
/-- The leaf that maps the paddock block: R and SUP (R321, R380). -/
def blockLeaf (p : PaddockConfig) : Word := (1 <<< 61) ||| (1 <<< 54) ||| BitVec.ofNat 64 (p.blockPa / 4096 * 4096) ||| 3
/-- The block is mapped at the address in PBLK in the paddock's address space (R380, R382). DESIGN CHOICE: assumption 25. -/
def mapBlock (p : PaddockConfig) (m : Memory) : Memory :=
  mapPage (blockLeaf p) p.pblk.toNat 4 1 (p.aspace.extractLsb' 12 27).toNat p.blockTables m

/-- The signed bytes 0 to 159 of a manifest (R379), as a list. -/
def signedBytes (p : PaddockConfig) : List Byte := bytesOf 160 p.manifest.toNat
/-- SHA-384 of the image bytes, as the manifest has it. DESIGN CHOICE: assumption 23. -/
def manifestDigest (p : PaddockConfig) : BitVec 384 := BitVec.ofNat 384 (field (signedBytes p) 0x10 48)
/-- Does the image of a paddock verify (R379): the magic, the length, the digest and the tenant of its signed bytes, and the signature?
DESIGN CHOICE: assumption 23. -/
def imageVerified (p : PaddockConfig) : Bool :=
  field (signedBytes p) 0 8 == 0x4D445050 && field (signedBytes p) 8 8 == p.image.length &&
    manifestDigest p == Config.sha384 (p.image.map (·.2)) && field (signedBytes p) 0x40 2 == p.tenant.toNat &&
    Config.ecdsaVerify (Config.sha384 (signedBytes p)) p.signature (Config.tenantKey p.tenant)

/-- Give the stacks of a paddock to it: those of its configuration that have been scrubbed (R341, R342). -/
def State.giveStacks (s : State) (p : PaddockConfig) : State :=
  ((List.range 16).filter fun k => p.dramStacks.getLsbD k && (s.stack k).state == .scrubbing).foldl (fun s k =>
    let x := s.stack k
    s.setStack k { x with state := .owned, step := 0, tenant := some p.tenant, reach := reachOf p k ||| (1#4 <<< x.owner.toNat) }) s

/-- The Ouvmer Link ports that a tenant uses: those that some peer's route names, on which its words may leave (R362), and those on which
the farrier monitor admits it (R367). DEDUCED: assumption 46. -/
def State.peerPorts (s : State) (tenant : BitVec 12) : List Nat :=
  (List.range 12).filter fun p => s.routes.any (fun e => e.2.getLsbD p) || (smapGet (0 : BitVec 4096) s.admitted p).getLsbD tenant.toNat
/-- The shared routers that a paddock uses (R366): those of the L2 slices of its dies, of the L3 slices of its stacks' dies, of the edges
inside its arc, of the host port where it holds virtual functions, and of the Ouvmer Link ports that it uses. DEDUCED: assumption 46. -/
def State.sharedRouters (s : State) (p : PaddockConfig) : List Nat :=
  let on (d : Nat) : Bool := p.dies.any (·.toNat == d)
  let slices (router : Nat → Nat → Nat) (f : Nat → Bool) : List Nat := ((List.range 4).filter f).flatMap fun d => (List.range 160).map (router d)
  slices l2Router on ++
    slices l3Router (fun d => (List.range 16).any fun k => p.dramStacks.getLsbD k && (k / 4 == d || (k / 4 + 1) % 4 == d)) ++
    edgeRouters ((List.range 4).filter fun e => on e && on ((e + 1) % 4)) ++
    (if p.vfs = 0 then [] else [hostRouter]) ++ (s.peerPorts p.tenant).map portRouter
/-- A router, or a port, carries one tenant more. -/
def addBit (bit : BitVec 4096) (r : Nat) : Smap (BitVec 4096) → Smap (BitVec 4096)
  | [] => [(r, bit)]
  | (a, x) :: m => if r = a then (a, x ||| bit) :: m else if r < a then (r, bit) :: (a, x) :: m else (a, x) :: addBit bit r m
/-- The routers of a paddock's clusters carry its tenant alone, the shared ones that it uses its tenant as well (R366).
DEDUCED: assumption 46. -/
def State.setRouters (s : State) (p : Paddock) : State :=
  let bit : BitVec 4096 := 1#4096 <<< p.cfg.tenant.toNat
  let m := ((List.range 1152).filter p.hasCluster).foldl (fun m c => smapSet 0 m (clusterRouter c) bit) s.routerBits
  { s with routerBits := (s.sharedRouters p.cfg).foldl (fun m r => addBit bit r m) m }

/-- Boot step 4 for one paddock: the block is written, the image verified, measured and loaded, and the block mapped. -/
def State.bootPaddock (s : State) (p : Paddock) : State :=
  let s1 := (s.giveStacks p.cfg).setRouters p
  let s2 : State := { s1 with mem := s1.mem.write p.cfg.blockPa 4096 (s1.blockValue p.cfg) }
  let good := imageVerified p.cfg
  let s3 : State := { s2 with paddocks := s2.paddocks.filter (·.cfg.tenant != p.cfg.tenant) ++ [{ p with verified := good, started := false }] }
  if good then
    { s3 with mem := mapBlock p.cfg (p.cfg.image.foldl (fun m e => m.setByte e.1 e.2) s3.mem)
              boot := s3.boot.measure 1 p.cfg.tenant (manifestDigest p.cfg) }
  else s3

/-! ### Reset and the boot steps (R378) -/

/-- The FEAT bits of the table of R383; the device offers every other bit as 0. -/
def featDefined : BitVec 128 := 0x1F
/-- The machine after the reset, before the boot's step 1: the boot count stands, memory has not been scrubbed, and what is still
to happen outside the device stays scheduled. -/
def State.afterReset (s : State) (offer : BitVec 128) : State :=
  { State.reset with
      mem := s.mem, agenda := s.agenda, free := s.free, boot := { bootn := s.boot.bootn, lcs := s.boot.lcs, offer := offer &&& featDefined } }
/-- The boot stops at a step. DESIGN CHOICE: assumption 24. -/
def State.bootFails (s : State) (n : BitVec 4) : State := { s with boot := { s.boot with failed := some (n, Config.bootCause s.free) } }

/-- PACKAGE_RESET (R378): steps 1 to 4; step 5 starts each supervisor (SUPERVISOR_START).
DESIGN CHOICE: assumption 11. DESIGN CHOICE: assumption 23. DESIGN CHOICE: assumption 24. -/
def execPackageReset (cfg : BootInput) (s : State) : Host.Outcome State Fault Refusal :=
  let s0 := s.afterReset cfg.offer
  .next (
    if Config.sramGood s.free = false then s0.bootFails 1
    else
      let s1 : State := { s0 with boot := { s0.boot with step := 1, bootn := s0.boot.bootn + 1 } }
      if Config.ecdsaVerify (Config.sha384 cfg.monitor) cfg.signature Config.monitorKey = false then s1.bootFails 2
      else
        let s2 : State := { s1 with boot := { s1.boot.measure 0 0 (Config.sha384 cfg.monitor) with step := 2 } }
        let s3 : State := { s2 with mem := [], boot := { s2.boot with step := 3 }, farrier := Vector.replicate 16 { sram := cfg.monitor },
                                    dramStacks := s2.dramStacks.map fun x => { x with state := .scrubbing },
                                    routes := cfg.routes.foldl (fun m e => smapSet 0 m e.1.toNat e.2) [],
                                    admitted := cfg.admitted.foldl (fun m e => addBit (1#4096 <<< e.2.toNat) e.1.toNat m) [] }
        let s4 := cfg.paddocks.foldl (fun s p => s.bootPaddock { cfg := p }) s3
        { s4 with boot := { s4.boot with step := 4 } })

/-- SUPERVISOR_START (R381). -/
def State.startSupervisor (s : State) (tenant : BitVec 12) : State :=
  match s.paddock tenant with
  | none => s
  | some p =>
    match p.firstCore with
    | none => s
    | some core =>
      if p.verified = true ∧ p.started = false ∧ 4 ≤ s.boot.step then
        let t := freshTask p.tid p.cfg.entry 1 p.cfg.tvec p.cfg.ctxBase p.cfg.aspace 0 0 []
        let s1 := (s.useTid tenant).modPaddock tenant fun p => { p with started := true }
        let s2 := s1.enrol t core
        if s2.paddocks.all (fun p => p.started || !p.verified) then { s2 with boot := { s2.boot with step := 5 } } else s2
      else s
/-- DESIGN CHOICE: assumption 11. -/
def execSupervisorStart (tenant : BitVec 12) (s : State) : Host.Outcome State Fault Refusal := .next (s.startSupervisor tenant)

/-! ### Partition reset (R386) -/

/-- The paddock's kernels, retired (R386 step 2). DEDUCED: assumption 59. -/
def Kernel.toRetired (k : Kernel) : Kernel := if k.state = .none then k else { state := .retired, gen := k.gen }
/-- A virtual function after a partition reset: records of work that is gone are dropped. DEDUCED: assumption 59. -/
def VFunc.afterReset (v : VFunc) : VFunc := { v with launches := [], resumes := [], stalled := none, selected := 0, paging := [], dumps := [] }
/-- The paddock after steps 1, 2 and 4 of R386. DEDUCED: assumption 59. -/
def Paddock.afterReset (p : Paddock) : Paddock :=
  { p with
      kernels := p.kernels.map Kernel.toRetired
      vfs := smapMap {} p.vfs fun _ v => v.afterReset
      feat := 0, committed := false, dumpQueue := [], dumpSlot := 0, restores := [] }
/-- A task is stopped as a debug stop would stop it, and its context is discarded (R386 step 1). -/
def State.discardTask (s : State) (tid : Tid) : State := (s.stopTask tid).release tid
/-- No ready queue names a discarded task. -/
def State.forgetTasks (s : State) (tenant : BitVec 12) : State :=
  { s with cores := smapMap {} s.cores fun _ c => { c with ready := c.ready.filter fun t => t.extractLsb' 36 12 != tenant } }

/-- May step 3 move a stack of the paddock (R341): it is not handing over, and no task of another paddock can reach it? -/
def State.resettable (s : State) (tenant : BitVec 12) (k : Nat) : Bool :=
  (s.stack k).state != .handing && !(s.tasks.any fun t => t.cstate != .free && t.tenant != tenant && (s.stack k).reachable t.die)
/-- PARTITION_RESET (R386). It waits until each of the paddock's stacks may be moved: a hand-over of one runs to its end first (R344).
DEDUCED: assumption 59. -/
def State.resetPartition (s : State) (tenant : BitVec 12) : State :=
  match s.paddock tenant with
  | none => s
  | some _ =>
    let mine := s.stacksOf tenant
    if mine.all (s.resettable tenant) = false then s else
    let tids := (s.tasks.filter fun t => t.cstate != .free && t.tenant == tenant).map (·.tid)
    let s1 := (tids.foldl State.discardTask s).forgetTasks tenant
    let s2 := mine.foldl (fun s k => (s.takeOffline k).startScrub k) s1
    match s2.paddock tenant with
    | none => s2
    | some p => (s2.bootPaddock p.afterReset).startSupervisor tenant
def execPartitionReset (tenant : BitVec 12) (s : State) : Host.Outcome State Fault Refusal := .next (s.resetPartition tenant)

/-! ### The dump writer (R246, R390) -/

/-- The physical addresses of the lines of a dump slot, as the device writes them for a paddock. -/
def State.dumpPas (s : State) (p : Paddock) (core slot : Nat) : Option (List Nat) :=
  let w : Who := { core := core, aspace := p.cfg.aspace, sup := true, tenant := p.cfg.tenant }
  (List.range (0x5000 / 64)).mapM fun k => s.agentLoc w { w := true } (p.cfg.dumpBase + BitVec.ofNat 64 (0x5000 * slot + 64 * k))
/-- Is a store of the dump writer only held up, by a frame in transit, a halter or a link? -/
def State.dumpHeld (s : State) (p : Paddock) (core : Nat) : Bool :=
  let w : Who := { core := core, aspace := p.cfg.aspace, sup := true, tenant := p.cfg.tenant }
  (List.range (0x5000 / 64)).any fun k => s.agentWaits w { w := true } (p.cfg.dumpBase + BitVec.ofNat 64 (0x5000 * p.dumpSlot + 64 * k))
/-- A dump of a settled context has been written to the next slot: its record is posted, and the context releases what EXIT releases. -/
def State.finishDump (s : State) (p : Paddock) (t : Task) (rest : List Tid) (pas : List Nat) : State :=
  let tenant := p.cfg.tenant
  let slots := p.cfg.dumpBytes / 0x5000
  let d := t.dump.getD { ecause := 0, epc := 0 }
  let seq := (p.vf p.ownVf).seq
  let s1 := (s.writeLines pas (t.dumpImage d)).postOwn tenant 6 0 t.tid (p.cfg.dumpBase + BitVec.ofNat 64 (0x5000 * p.dumpSlot)) 0 d.ecause d.epc
  let s2 := s1.modPaddock tenant fun p => { p with dumpQueue := rest, dumpSlot := if p.dumpSlot + 1 < slots then p.dumpSlot + 1 else 0 }
  let s3 := s2.modVf tenant p.ownVf fun v => { v with dumps := v.dumps.filter (·.slot != p.dumpSlot) ++ [{ seq := seq, slot := p.dumpSlot }] }
  s3.release t.tid
/-- DUMP_WRITE (R246, R390): the next dumped context, once nothing of it is outstanding, its memberships can be left, the next slot in turn is free and
its record finds room (R258). A fault of the writer's own stores has the farrier monitor reset the partition. -/
def State.writeDump (s : State) (tenant : BitVec 12) : State :=
  match s.paddock tenant with
  | none => s
  | some p =>
    match p.dumpQueue with
    | [] => s
    | tid :: rest =>
      if (s.findTask tid).isNone then s.modPaddock tenant fun p => { p with dumpQueue := rest }
      else if s.dumpFree p p.dumpSlot = false ∨ s.delivering tid = true ∨ (s.findTask tid).any s.mayLeave = false then s
      else
        let s0 := s.settle tid
        if s0.settled tid = false ∨ s0.postRoom tenant = false then s0
        else
          let s1 := s0.modTask tid fun t => { t with streams := t.streams.map Stream.discard }
          match s1.findTask tid, s1.paddock tenant with
          | some t, some p =>
            match s1.dumpPas p t.core p.dumpSlot with
            | some pas => s1.finishDump p t rest pas
            | none => if s1.dumpHeld p t.core then s1 else s1.resetPartition tenant
          | _, _ => s0
def execDumpWrite (tenant : BitVec 12) (s : State) : Host.Outcome State Fault Refusal := .next (s.writeDump tenant)

end Sys2Proof.Machine
end

