-- ==== Sys2Proof/Machine/Wake.lean ====
section
/-! DEFINITION. When a stall ends (R237, R250, R255, R269, R314) and which task executes. -/

namespace Sys2Proof.Machine

open Sys2Proof

/-- Have the tasks that a YIELD of a task counts all issued, or left the running state (R250)? -/
def State.yieldOver (s : State) (t : Task) (ps : List Tid) : Bool :=
  ps.all fun p => !(s.tasks.any fun u => u.tid == p && u.cstate == .running && u.core == t.core)

/-- May a waiting task go on (R237)? A stall ends by executing the instruction again; a monitor's, counter's, count's or YIELD's
wait ends when its condition has come. -/
def State.mayResume (s : State) (t : Task) : Bool :=
  t.cstate == .waiting &&
  match t.wait with
  | .none => true
  | .retry => true
  | .yield ps => s.yieldOver t ps
  | .count u => decide (u ≤ s.clk)
  | .wfe _ c fired r => fired || r != 0 || decide (c + 65536 ≤ s.clk)
  | .counter _ _ met _ => met.isSome
  | .ring _ fired => fired
  | .post k g a => a || s.postFree t.tenant k g (.task t.tid)
  | .mark _ _ => t.tile.isNone
  | .halter => t.tile.isNone
  | .transit k held c => !(s.stack k.toNat).inTransit && (!held || s.turn { stack := k.toNat, since := c })
  | .walk va => match s.check t.who { r := true } va with | .ok l => !s.needsX l | .error _ => true
  | .send pa => s.mailFree pa (.task t.tid)
  | .peer key seq => !((smapGet {} s.peerTx key).unacked.any (·.1 == seq))
  | .traced port pa c => s.traceFree t (port, pa, c)

/-- A stall ends. -/
def Task.resume (t : Task) : Task := { t with cstate := .running }

/-- Make another task the executing one; the one that executed goes behind the others. -/
def State.switchTo (s : State) (tid : Tid) : State :=
  match s.others.find? (·.tid == tid) with
  | none => s
  | some t =>
    { s with task := t, others := s.others.filter (·.tid != tid) ++ (if s.task.cstate = .free then [] else [s.task]) }

end Sys2Proof.Machine
end

