-- ==== Sys2Proof/Machine/Home.lean ====
section
/-! DEFINITION. Events at the cores and at the homes: issue and fetch, counter operations and group changes in their order of
arrival, and the host's accesses to memory. -/

namespace Sys2Proof.Machine

open Sys2Proof

/-! ### Fetch and issue (R171, R236, R287, R288) -/

/-- INSTRUCTION_FETCH (R171): the block at the program counter of the executing task, or the fault of its fetch. -/
def execInstructionFetch (s : State) : Host.Outcome State Fault Refusal :=
  .next (if s.task.cstate = .running then
      match s.fetch with
      | .ok (s1, _) => s1
      | .error e => s.finish .instructionFetch (.error e)
    else s)

/-- The task of a slot, if the slot is ready: one that runs, or whose stall may end (R236, R237, R287). -/
def State.slotTask (s : State) (core slot : Nat) : Option Task :=
  s.tasks.find? fun t => t.core == core && t.slot == slot && (t.cstate == .running || s.mayResume t)
/-- The first ready slot's task after the slot that a core chose last (R236, R287). -/
def State.nextSlot (s : State) (core : Nat) : Option Task :=
  [1, 2, 3, 4].findSome? fun k => s.slotTask core (((s.core core).last + k) % 4)

/-- A core has chosen the slot of a task, which executes from here. -/
def State.chosen (s : State) (t : Task) : State :=
  let s1 := if s.task.tid = t.tid then s else s.switchTo t.tid
  (s1.setTask s1.task.resume).setCore t.core { s1.core t.core with last := t.slot }

/-- ISSUE (R287): the core chooses the next ready slot, whose task issues its next instruction.
DESIGN CHOICE: assumption 1. DESIGN CHOICE: assumption 42. -/
def State.issueOn (s : State) (core : Nat) : State :=
  if s.clk < (s.core core).gate ∨ s.clocked (core / 8) = false then s
  else match s.nextSlot core with
  | none => s
  | some t => { s.chosen t with grant := 1 }
/-- DESIGN CHOICE: assumption 1. -/
def execIssue (core : Nat) (s : State) : Host.Outcome State Fault Refusal := .next (s.issueOn core)

/-- LONG_LATENCY_RESULT (R288): a result lies in its register from the moment its instruction has issued, so its return changes
nothing that an instruction can see. DESIGN CHOICE: assumption 42. -/
def execLongLatencyResult (tid : BitVec 48) (s : State) : Host.Outcome State Fault Refusal :=
  .next (s.modTask tid id)

/-! ### Counters and groups at their homes (R298, R302, R314) -/

/-- An operation of an agent on a counter (R302 to R306, R314): an add is held while the counter's stack is in transit (R307), and while
its record finds no room (R270). DESIGN CHOICE: assumption 61. -/
def State.counterOp (s : State) (pa : Nat) (op : CounterOp) (tid : Tid) (va : Word) : State :=
  match op with
  | .add v => s.makeAdd { core := 0, aspace := 0, sup := false, va := va, pa := some pa, tid := tid, amount := v.toNat }
  | .read => s
  | .wait target =>
    s.modTask tid fun t => match t.wait with
      | .counter q g none ph =>
        if q = pa ∧ g = target.toNat ∧ g ≤ waitValue s.mem pa ph then
          { t with wait := .counter q g (some (BitVec.ofNat 64 (waitValue s.mem pa ph))) ph }
        else t
      | _ => t
/-- COUNTER_OP (R302); a wait completes only where its counter's stack is not in transit (R98, R345). -/
def execCounterOp (pa : Nat) (op : CounterOp) (tid : BitVec 48) (va : Word) (s : State) : Host.Outcome State Fault Refusal :=
  if 2 ^ 39 ≤ pa then .fault (.outsideMemory pa)
  else .next (if pa % 8 ≠ 0 ∨ ((s.stack (stackOf pa)).inTransit = true ∧ (match op with | .add _ => false | _ => true) = true) then s
    else s.counterOp pa op tid va)

/-- COUNTER_WAIT_COMPLETE (R314): a wait that an add has met. -/
def execCounterWaitComplete (tid : BitVec 48) (s : State) : Host.Outcome State Fault Refusal :=
  .next (s.modTask tid fun t => match t.wait with
    | .counter _ _ (some _) _ => if t.cstate = .waiting then t.resume else t
    | _ => t)

/-- The group at an address: its entry, or a new one from an idle record with a legal MAXM that finds an entry free (R296). -/
def State.groupFor (s : State) (pa : Nat) : Option Group :=
  match s.groupAt pa with
  | some g => some g
  | none =>
    let h := s.census pa
    let maxm := h.extractLsb' 16 16
    if 1 ≤ maxm.toNat ∧ maxm.toNat ≤ 16384 ∧ h.extractLsb' 0 16 = 0 ∧ s.groupEntries pa < 16 then
      some { pa := pa, ver := h.extractLsb' 40 24, maxm := maxm, members := [] }
    else none

/-- A JOIN or LEAVE of a task takes effect at the group's home (R297, R298); one that changes nothing rewrites the record as well (R296).
DESIGN CHOICE: assumption 61. -/
def State.groupChange (s : State) (pa : Nat) (joins : Bool) (tid : Tid) : State :=
  match s.findTask tid, s.groupFor pa with
  | some t, some g =>
    match g.members.findIdx? (·.1 == tid) with
    | some j => if joins then s.rewrite pa else s.leaveGroup g j tid
    | none =>
      if joins && decide (t.groups.length < 4) && decide (g.members.length < g.maxm.toNat) then s.joinGroup g t else s.rewrite pa
  | _, _ => s
/-- GROUP_CHANGE (R298); it waits for a hand-over (R98) and for halters of others on the record's lines (R168). -/
def execGroupChange (pa : Nat) (joins : Bool) (tid : BitVec 48) (s : State) : Host.Outcome State Fault Refusal :=
  if 2 ^ 39 ≤ pa then .fault (.outsideMemory pa)
  else .next (if pa % 64 ≠ 0 ∨ (s.stack (stackOf pa)).inTransit = true ∨ s.groupHaltered tid pa = true then s else s.groupChange pa joins tid)

/-! ### The host (R157, R327, R364) -/

/-- The lines of a host access. -/
def hostLines (pa n : Nat) : List Nat := (List.range (lineOf (pa + n - 1) - lineOf pa + 1)).map (lineOf pa + ·)
/-- Do all bytes of a host access lie on stacks that serve accesses (R341)? DEDUCED: assumption 60. -/
def State.hostReach (s : State) (pa n : Nat) : Bool :=
  (hostLines pa n).all fun l => let k := s.stack (stackOf (64 * l)); k.state == .owned || k.state == .handing
/-- Does a host access wait: a frame is in transit (R98, R154), a line is under a halter (R168), no arc of the ring leads from base die 0,
where the host link stands (R20), to its home (R360, R361), or one that came before waits? DEDUCED: assumption 60. -/
def State.hostWaits (s : State) (earlier : List HostAccess) (pa n : Nat) : Bool :=
  (hostLines pa n).any fun l =>
    (s.stack (stackOf (64 * l))).inTransit || s.halters.any (fun h => h.line == l) || (s.arc [0, 1, 2, 3] 0 (s.homeDie (64 * l))).isNone ||
      earlier.any fun a => (hostLines a.pa a.n).contains l
/-- Little-endian value of bytes. -/
def leBytes : List Byte → Nat
  | [] => 0
  | b :: l => b.toNat + 256 * leBytes l
/-- Does a task wait on a counter of a line? -/
def State.waitsOn (s : State) (line : Nat) : Bool :=
  s.tasks.any fun t => t.cstate == .waiting && (match t.wait with | .counter q _ _ _ => lineOf q == line | _ => false)
/-- The `n` bytes of memory at an address. -/
def State.bytesAt (s : State) (pa n : Nat) : List Byte := (List.range n).map fun i => s.mem.byte (pa + i)
/-- Do the tables from `table` down map an address on a counter page (R302, R320, R321)? An entry with V has a byte that is not 0, so memory
lists it. -/
def mapsCounter (m : Memory) (rep : Bool) (pa : Nat) : Nat → Nat → Nat → Bool
  | 0, _, _ => false
  | fuel + 1, level, table =>
    let page : Memory := m.filter fun c => c.1 / 4096 == table
    page.any fun c =>
      let e : Word := BitVec.ofNat 64 (page.read (c.1 / 8 * 8) 8)
      pteV e && !pteMalformed rep level e &&
        (if pteLeaf e then pteCtr e && pa / 2 ^ levelBits level == pteFrame e * 4096 / 2 ^ levelBits level
         else mapsCounter m rep pa fuel (level + 1) (pteFrame e))
/-- The address spaces in use, with their tenants: of the tasks, and those given to a paddock and to its virtual functions. -/
def State.spaces (s : State) : List (BitVec 12 × Word) :=
  (s.tasks.filter (·.cstate != .free)).map (fun t => (t.tenant, t.aspace)) ++
    s.paddocks.flatMap fun p => (p.cfg.aspace :: p.cfg.aspaces.map (·.2)).map (p.cfg.tenant, ·)
/-- Does a line hold counters: does an address space in use map it on a counter page, or a translation still cached, or does a task wait on
a counter there? DEDUCED: assumption 60. -/
def State.counterLine (s : State) (line : Nat) : Bool :=
  s.tlb.any (fun e => pteCtr e.leaf && e.maps (64 * line)) || s.waitsOn line ||
    s.spaces.any fun x => x.2.getLsbD 0 && mapsCounter s.mem (s.feat x.1 1) (64 * line) 4 1 (x.2.extractLsb' 12 27).toNat
/-- What a host write changes beside memory: copies of its lines are taken back (R152, R157), and the phases of records and the waits of
counters are met (R309, R314). DEDUCED: assumption 60. -/
def State.hostWrite (s : State) (pa : Nat) (bytes : List Byte) : State :=
  (hostLines pa bytes.length).foldl (fun s l =>
    let s1 := (s.backInvalidate l).dropCopies l fun _ => true
    if s1.counterLine l then s1.changed (64 * l) else s1) (s.poke pa bytes.length (leBytes bytes))
/-- A host access is performed. -/
def State.hostPerform (s : State) (a : HostAccess) : State :=
  match a.write with | none => { s with out := s.bytesAt a.pa a.n } | some l => s.hostWrite a.pa l
/-- A host access through CXL (R364): performed, or held until it can be; one to a stack that serves none has no effect.
DEDUCED: assumption 60. -/
def State.hostAccess (s : State) (a : HostAccess) : State :=
  if s.hostLinkUp = false ∨ s.hostReach a.pa a.n = false then s
  else if s.hostWaits s.hostHeld a.pa a.n then { s with hostHeld := s.hostHeld ++ [{ a with since := s.clk }] }
  else s.hostPerform a
/-- The first held access of the host that need wait no longer is performed. -/
def State.hostWork (s : State) : State :=
  match (List.range s.hostHeld.length).find? fun i => match s.hostHeld[i]? with
    | some a => !s.hostWaits (s.hostHeld.take i) a.pa a.n
    | none => false with
  | none => s
  | some i => match s.hostHeld[i]? with
    | none => s
    | some a => let s1 := { s with hostHeld := s.hostHeld.eraseIdx i }; if s1.hostReach a.pa a.n then s1.hostPerform a else s1

/-- HOST_CODE_WRITE (R327): a host write to lines of code frames performs without a mark.
DEDUCED: assumption 60. DESIGN CHOICE: assumption 61. -/
def execHostCodeWrite (pa : Nat) (bytes : List Byte) (s : State) : Host.Outcome State Fault Refusal :=
  if 2 ^ 39 < pa + bytes.length then .fault (.outsideMemory pa)
  else .next (if bytes ≠ [] ∧ s.isCode pa = true then s.hostAccess { pa := pa, n := bytes.length, write := some bytes } else s)

end Sys2Proof.Machine
end

