-- ==== Sys2Proof/Machine/Link.lean ====
section
/-! DEFINITION. Links (R356 to R363) and routers (R366, R367): the states of a link and its replays, words to and from peer
packages, and the drop of a foreign tenant's message. -/

namespace Sys2Proof.Machine

open Sys2Proof

/-! ### States (R356 to R359) -/

/-- Change link n. -/
def State.modLink (s : State) (n : BitVec 5) (f : Link → Link) : State :=
  if h : n.toNat < 17 then { s with links := s.links.set n.toNat (f s.links[n.toNat]) h } else s

def LinkSt.code : LinkSt → BitVec 3 | .down => 0 | .training => 1 | .up => 2 | .degraded => 3 | .quarantined => 4
/-- The status image of a link (R359). -/
def Link.image (l : Link) : Word := l.retry ++ 0#12 ++ l.cause ++ 0#7 ++ BitVec.ofBool l.half ++ l.lanes ++ l.state.code

/-- The widths at which a link runs, the full one first and the minimum last (R356, R358): a die-to-die link at full or half width,
the host link at those that PCIe training yields, an Ouvmer Link port at 8, 4 or 2 lanes. DEDUCED: assumption 18. -/
def widths (n : Nat) : List Nat := if n ≤ 3 then [16, 8] else if n = 4 then [16, 8, 4, 2, 1] else [8, 4, 2]
/-- DEDUCED: assumption 18. -/
def fullLanes (n : Nat) : Nat := (widths n).headD 0
/-- The width at which a link with so many good lanes runs: none below the minimum. DEDUCED: assumption 18. -/
def widthOf (n : Nat) (lanes : BitVec 5) : Option Nat := (widths n).find? (· ≤ lanes.toNat)

/-- A link that goes down carries nothing. -/
def Link.goDown (l : Link) : Link := { l with state := .down, lanes := 0, half := false, failed := 0 }
/-- A trained link runs at the width of its lanes (R358): up at full width and rate, degraded below, down below the minimum.
DEDUCED: assumption 18. -/
def Link.run (l : Link) (n : Nat) (lanes : BitVec 5) (half : Bool) : Link :=
  match widthOf n lanes with
  | none => l.goDown
  | some w => { l with state := if half = false ∧ w = fullLanes n then .up else .degraded, lanes := BitVec.ofNat 5 w, half := half }
/-- A link that is up or degraded becomes quarantined (R358). -/
def Link.quarantine (l : Link) (why : BitVec 4) : Link :=
  if l.state = .up ∨ l.state = .degraded then { l with state := .quarantined, cause := why } else l

/-- The clks of 100 ms and of 1 ms (R3, R358). -/
def trainingClks : Nat := 85000000
def windowClks : Nat := 850000
/-- The replays of the 1 ms that ends now. DEDUCED: assumption 64. -/
def Link.recentReplays (l : Link) (clk : Nat) : List Nat := l.replays.filter fun c => decide (clk < c + windowClks)
/-- More than 2^16 replays within 1 ms quarantine a link (R358). DEDUCED: assumption 64. -/
def Link.rateCheck (l : Link) (clk : Nat) : Link := if 65536 < (l.recentReplays clk).length then l.quarantine 1 else l
/-- 100 ms without training (R358). DEDUCED: assumption 64. -/
def Link.trainingEnd (l : Link) (clk : Nat) : Link :=
  if l.state = .training ∧ l.since + trainingClks ≤ clk then l.goDown else l

/-- LINK_ENABLE (R358): a link that is down starts training, and RETRY counts from there. DEDUCED: assumption 64. -/
def execLinkEnable (link : BitVec 5) (s : State) : Host.Outcome State Fault Refusal :=
  .next (s.modLink link fun l =>
    if l.state = .down then { l with state := .training, retry := 0, replays := [], failed := 0, since := s.clk } else l)
/-- LINK_TRAINED (R358), within 100 ms. -/
def execLinkTrained (link lanes : BitVec 5) (half : Bool) (s : State) : Host.Outcome State Fault Refusal :=
  .next (s.modLink link fun l =>
    let l := l.trainingEnd s.clk
    if l.state = .training then l.run link.toNat lanes half else l)
/-- LINK_TRAINING_TIMEOUT (R358): 100 ms without training. -/
def execLinkTrainingTimeout (link : BitVec 5) (s : State) : Host.Outcome State Fault Refusal :=
  .next (s.modLink link fun l => l.trainingEnd s.clk)
/-- LANE_FAILURE (R358): a link that is up retrains with the lanes left, as degraded; it stays as it is where spare lanes keep its
width and rate, or where no width of the table is left. DEDUCED: assumption 18. -/
def execLaneFailure (link lanes : BitVec 5) (half : Bool) (s : State) : Host.Outcome State Fault Refusal :=
  .next (s.modLink link fun l =>
    if l.state = .up ∧ (l.run link.toNat lanes half).state = .degraded then l.run link.toNat lanes half else l)
/-- LINK_RETRAIN (R358): a degraded link is retrained at full width and rate. -/
def execLinkRetrain (link : BitVec 5) (s : State) : Host.Outcome State Fault Refusal :=
  .next (s.modLink link fun l =>
    if l.state = .degraded then { l with state := .up, lanes := BitVec.ofNat 5 (fullLanes link.toNat), half := false } else l)
/-- LINK_DISABLE (R358): from any state, and the only way out of quarantined. DEDUCED: assumption 64. -/
def execLinkDisable (link : BitVec 5) (s : State) : Host.Outcome State Fault Refusal := .next (s.modLink link Link.goDown)
/-- Has a link met what a cause of R359 names (R356, R358): the replay rate, a flit that fails its eighth replay, a tenant violation on an
Ouvmer Link port (R367), a command? DEDUCED: assumption 64. -/
def Link.mayQuarantine (l : Link) (n : Nat) (clk : Nat) (why : BitVec 4) : Bool :=
  if why = 1 then decide (65536 < (l.recentReplays clk).length) else if why = 2 then decide (8 ≤ l.failed)
  else if why = 3 then decide (5 ≤ n) else why == 4
/-- LINK_QUARANTINE (R358, R367): nothing where the link has not met the cause. DEDUCED: assumption 64. -/
def execLinkQuarantine (link : BitVec 5) (why : BitVec 4) (s : State) : Host.Outcome State Fault Refusal :=
  .next (s.modLink link fun l => if l.mayQuarantine link.toNat s.clk why then l.quarantine why else l)

/-- A flit that fails its CRC is replayed and counted; one that fails 8 replays is uncorrectable (R356).
DEDUCED: assumption 64. -/
def Link.flit (l : Link) (crcOk : Bool) (clk : Nat) : Link :=
  if l.state ≠ .up ∧ l.state ≠ .degraded then l
  else if crcOk then { l with failed := 0 }
  else if 8 ≤ l.failed then { l.quarantine 2 with failed := 0 }
  else
    { l with failed := l.failed + 1, replays := clk :: l.recentReplays clk
             retry := if l.retry = 0xFFFFFFFF then l.retry else l.retry + 1 }.rateCheck clk
/-- FLIT_RECEIVE (R356). -/
def execFlitReceive (link : BitVec 5) (crcOk : Bool) (s : State) : Host.Outcome State Fault Refusal :=
  .next (s.modLink link fun l => l.flit crcOk s.clk)
/-- REPLAY_RATE_WINDOW (R358): more than 2^16 replays within the 1 ms that is over. -/
def execReplayRateWindow (link : BitVec 5) (s : State) : Host.Outcome State Fault Refusal :=
  .next (s.modLink link fun l => l.rateCheck s.clk)

/-! ### Routers (R366, R367) -/

/-- TENANT_DROP (R367): a router whose bit for the tenant is clear drops the message and reports it. DEDUCED: assumption 46. -/
def execTenantDrop (router : Nat) (tenant : BitVec 12) (s : State) : Host.Outcome State Fault Refusal :=
  .next (if (smapGet (0 : BitVec 4096) s.routerBits router).getLsbD tenant.toNat then s
    else { s with drops := s.drops ++ [(router, tenant)] })

/-! ### Peer packages (R362, R363) -/

/-- The peer has accepted a word of one of this package's cores: it is acknowledged. DEDUCED: assumption 45. -/
def State.acknowledge (s : State) (key seq : Nat) : State :=
  let tx := smapGet {} s.peerTx key
  { s with peerTx := smapSet {} s.peerTx key { tx with unacked := tx.unacked.filter (·.1 != seq) } }
/-- A numbered word from a core of a peer package that arrives on a port: the next one expected goes to its core, stamped again (R370),
along an arc from the port's base die (R20, R361), unless a router on the way drops it (R367); one already accepted is discarded, and one
out of turn is not accepted. DEDUCED: assumption 45. DEDUCED: assumption 46. -/
def State.fromPeer (s : State) (port key seq core : Nat) (w : PortWord) : State :=
  let taken (s : State) : State := { s with peerRx := smapSet 0 s.peerRx key (seq + 1) }
  if seq = smapGet 0 s.peerRx key then
    match s.arc (s.dies w.tenant) (port / 3) (core / 2304) with
    | none => s
    | some arc =>
      match s.stopsAt w.tenant (portRouters core port arc) with
      | some r => taken { s with drops := s.drops ++ [(r, w.tenant)] }
      | none => match s.arrive core { w with stamp := s.stamp } with | some s1 => taken s1 | none => s
  else s
/-- A word that arrives on an Ouvmer Link port (R363, R367): one of a tenant that the farrier monitor has not admitted there is dropped,
and the port is quarantined. -/
def State.peerArrival (s : State) (port : Nat) (key seq core : Nat) (w : PortWord) : State :=
  if s.linkUp (port + 5) = false then s
  else if (smapGet (0 : BitVec 4096) s.admitted port).getLsbD w.tenant.toNat then s.fromPeer port key seq core w
  else s.modLink (BitVec.ofNat 5 (port + 5)) (Link.quarantine · 3)
/-- PEER_WORD_RECEIVE (R363): the peer accepts a word that a core of this package has sent on a port, or this package receives one on
a port from core `src` of the peer. DEDUCED: assumption 45. -/
def execPeerWordReceive (pkg : PeerLink) (src : BitVec 14) (seq : Nat) (core : Nat) (w : PortWord) (s : State) :
    Host.Outcome State Fault Refusal :=
  let key := src.toNat * 4096 + pkg.pkg.toNat
  let tx := smapGet {} s.peerTx key
  let port := pkg.port.toNat
  .next (
    if tx.unacked.contains (seq, w) then
      if tx.port = some port ∧ s.linkUp (port + 5) = true then s.acknowledge key seq else s
    else s.peerArrival port key seq core w)

/-- Replay the words of a core to a peer that are not acknowledged, once their port has changed (R363): all of them go out again on the
new port, in sequence order and before any new word, and stay unacknowledged until the peer accepts them. DEDUCED: assumption 45. -/
def State.replayPeer (s : State) (key : Nat) : State :=
  let tx := smapGet {} s.peerTx key
  let port := s.outPort (key / 4096) (key % 4096)
  if tx.unacked ≠ [] ∧ port.isSome = true ∧ tx.port ≠ port then { s with peerTx := smapSet {} s.peerTx key { tx with port := port } } else s
/-- PEER_PORT_REPLAY (R363). DEDUCED: assumption 45. -/
def execPeerPortReplay (core : Nat) (pkg : BitVec 12) (s : State) : Host.Outcome State Fault Refusal :=
  .next (s.replayPeer (core * 4096 + pkg.toNat))
/-- What passes with time at the links (R358, R363): training ends, and words wait for no command to be replayed. -/
def State.linkWork (s : State) : State :=
  let s1 := { s with links := s.links.map fun (l : Link) => l.trainingEnd s.clk }
  (s1.peerTx.map (·.1)).foldl State.replayPeer s1

end Sys2Proof.Machine
end

