-- ==== Sys2Proof/Machine/Registers.lean ====
section
/-! DEFINITION. Status registers (R4, R5, R39, R136 to R143, R208, R224, R229, R235, R254, R259, R260, R319, R330, R335, R368 to
R373, R382): what a read returns, what a write does, CSRR and CSRW, and the events of register writes. -/

namespace Sys2Proof.Machine

open Sys2Proof

/-! ### Who may reach a register (R235, R368, R382) -/

/-- The registers of the machine. -/
inductive Reg where
  | tid | stat | epc | ecause | einfo (n : BitVec 2) | estat | tvec | ctxa | fsr | seed | lsplit | vpool | sgen | stash (n : BitVec 3)
  | sst (n : BitVec 2) | twin | jsr | capnew | capt (n : BitVec 4) | pb (n : BitVec 2) | rank | rtnew | kcur | aspace | pfres | mkclr
  | dbgctl | dbgq | dres | gclk | prsel | prdat | monsel | mondat | moncfg (n : BitVec 2) | stop (n : BitVec 3) | stopa (n : BitVec 3)
  | feat0 | feat1 | pblk | bootn
deriving DecidableEq, Repr

/-- The register of a number. -/
def regOf (n : BitVec 12) : Option Reg :=
  let k := n.toNat
  if k = 0x001 then some .tid else if k = 0x002 then some .stat else if k = 0x003 then some .epc
  else if k = 0x004 then some .ecause
  else if 0x005 ≤ k ∧ k ≤ 0x007 then some (.einfo (BitVec.ofNat 2 (k - 5)))
  else if k = 0x008 then some .estat else if k = 0x009 then some .tvec else if k = 0x00A then some .ctxa
  else if k = 0x010 then some .fsr else if k = 0x011 then some .seed
  else if k = 0x020 then some .lsplit else if k = 0x021 then some .vpool else if k = 0x022 then some .sgen
  else if 0x028 ≤ k ∧ k ≤ 0x02F then some (.stash (n.setWidth 3))
  else if 0x030 ≤ k ∧ k ≤ 0x033 then some (.sst (n.setWidth 2))
  else if k = 0x040 then some .twin else if k = 0x041 then some .jsr else if k = 0x05F then some .capnew
  else if 0x060 ≤ k ∧ k ≤ 0x06F then some (.capt (n.setWidth 4))
  else if 0x080 ≤ k ∧ k ≤ 0x083 then some (.pb (n.setWidth 2))
  else if k = 0x084 then some .rank else if k = 0x085 then some .rtnew else if k = 0x090 then some .kcur
  else if k = 0x100 then some .aspace else if k = 0x101 then some .pfres else if k = 0x102 then some .mkclr
  else if k = 0x180 then some .dbgctl else if k = 0x181 then some .dbgq else if k = 0x182 then some .dres
  else if k = 0x183 then some .gclk else if k = 0x188 then some .prsel else if k = 0x189 then some .prdat
  else if k = 0x18A then some .monsel else if k = 0x18B then some .mondat
  else if 0x18C ≤ k ∧ k ≤ 0x18F then some (.moncfg (n.setWidth 2))
  else if 0x190 ≤ k ∧ k ≤ 0x197 then some (.stop (n.setWidth 3))
  else if 0x198 ≤ k ∧ k ≤ 0x19F then some (.stopa (n.setWidth 3))
  else if k = 0x1C0 then some .feat0 else if k = 0x1C1 then some .feat1
  else if k = 0x1C2 then some .pblk else if k = 0x1C3 then some .bootn
  else none

/-- Is a register read by supervisor tasks only (R235)? -/
def Reg.supRead : Reg → Bool
  | .epc | .ecause | .einfo _ | .estat | .tvec => true
  | _ => false

/-- Who may write a register: any task, supervisor tasks, no task (the privilege trap), or any task without effect (R4). -/
inductive Writer where | any | sup | never | ignored
deriving DecidableEq, Repr

/-- Who writes a register (R235, R259, R284, R368, R382). DEDUCED: assumption 51. -/
def Reg.writer : Reg → Writer
  | .fsr | .seed | .sst _ | .jsr | .pb _ => .any
  | .tid | .feat0 | .feat1 | .pblk | .bootn => .never
  | .kcur | .sgen => .ignored
  | _ => .sup

/-! ### Reads -/

/-- The paddock of the executing task. -/
def State.own (s : State) : Option Paddock := s.paddock s.task.tenant
/-- A word of the paddock of the executing task. -/
def State.ownWord (s : State) (f : Paddock → Word) : Word := match s.own with | some p => f p | none => 0

/-- PBn with the count of its receive queue (R259). -/
def Port.image (p : Port) : Word := p.pb ||| BitVec.ofNat 64 p.queue.length
/-- DBGCTL as it reads: without trace the mode reads 0 (R383). -/
def Paddock.dbgctlImage (p : Paddock) : Word := if p.feat.getLsbD 2 then p.dbgctl else p.dbgctl &&& ~~~(3 : Word)
/-- The profile word that PRSEL selects (R371). -/
def Core.profileWord (c : Core) : Word :=
  match c.profile[(c.prsel.extractLsb' 0 5).toNat]? with
  | none => 0
  | some p =>
    let w := (c.prsel.extractLsb' 5 3).toNat
    if w = 0 then p.key.setWidth 64 else p.words.getD (w - 1) 0
/-- The monitor word that MONSEL selects (R372). -/
def Cluster.monitorWord (c : Cluster) : Word :=
  let n : BitVec 2 := c.monsel.setWidth 2
  let m := c.monitors[n.toNat]'(n.isLt)
  let w := (c.monsel.extractLsb' 2 5).toNat
  if w = 0 then m.least else if w = 1 then m.most else if w = 2 then m.count else if w ≤ 18 then m.bins.getD (w - 3) 0 else 0

/-- An entry of a table of eight or sixteen registers. -/
def pick {n : Nat} (v : Vector Word n) (i : Nat) : Word := if h : i < n then v[i] else 0
def place {n : Nat} (v : Vector Word n) (i : Nat) (x : Word) : Vector Word n := if h : i < n then v.set i x h else v

/-- What a read of a register returns (R254); WO registers read 0 (R4). -/
def State.regValue (s : State) : Reg → Word
  | .tid => s.task.tid.setWidth 64
  | .stat => s.task.stat
  | .epc => s.task.epc
  | .ecause => s.task.ecause
  | .einfo n => if n = 0 then s.task.einfo0 else if n = 1 then s.task.einfo1 else s.task.einfo2
  | .estat => s.task.estat
  | .tvec => s.task.tvec
  | .ctxa => s.task.ctxa
  | .fsr => s.task.fsr
  | .seed => s.task.seed
  | .lsplit => (s.core s.task.core).lsplit
  | .vpool => (s.cluster s.task.cluster).vpool
  | .sgen => (s.core s.task.core).sgen.setWidth 64
  | .stash n => pick (s.core s.task.core).stash n.toNat
  | .sst n => (s.task.stream n).image
  | .twin => s.task.twin
  | .jsr => s.task.jsr
  | .capnew => 0
  | .capt n => pick (s.cluster s.task.cluster).capt n.toNat
  | .pb n => (s.task.port n).image
  | .rank => s.task.rank
  | .rtnew => 0
  | .kcur => s.task.kcur
  | .aspace => s.task.aspace
  | .pfres => 0
  | .mkclr => 0
  | .dbgctl => s.ownWord Paddock.dbgctlImage
  | .dbgq => s.ownWord (·.dbgq)
  | .dres => 0
  | .gclk => BitVec.ofNat 64 s.clk
  | .prsel => (s.core s.task.core).prsel
  | .prdat => (s.core s.task.core).profileWord
  | .monsel => (s.cluster s.task.cluster).monsel
  | .mondat => (s.cluster s.task.cluster).monitorWord
  | .moncfg n => ((s.cluster s.task.cluster).monitors[n.toNat]'(n.isLt)).cfg
  | .stop n => s.ownWord fun p => pick p.stops n.toNat
  | .stopa n => s.ownWord fun p => pick p.stopa n.toNat
  | .feat0 => s.ownWord fun p => p.feat.extractLsb' 0 64
  | .feat1 => s.ownWord fun p => p.feat.extractLsb' 64 64
  | .pblk => s.ownWord (·.cfg.pblk)
  | .bootn => s.boot.bootn

/-- JSR waits for every earlier MMA of the task (R224). -/
def State.jsrReady (s : State) : Except Stop Unit :=
  need (!(s.clusters.any fun c => c.2.live.any fun j => j.mma && j.tid == s.task.tid)) (.wait .retry)

/-- A read of a register by the executing task (R235, R254). -/
def State.readReg (s : State) (n : BitVec 12) : Except Stop Word :=
  match regOf n with
  | none => .error Stop.illegalOperand
  | some r => do
    need (!r.supRead || s.task.sup) Stop.privilege
    if r = .jsr then s.jsrReady else .ok ()
    .ok (s.regValue r)

/-! ### Writes of the core's and the cluster's registers -/

/-- Fields of LSPLIT, and the segments left to the cache (R136). -/
def lsplitScr (v : Word) : Nat := (v.extractLsb' 0 5).toNat
def lsplitStash (v : Word) : Nat := (v.extractLsb' 8 5).toNat
def lsplitCache (v : Word) : Nat := 16 - lsplitScr v - lsplitStash v
/-- Role of segment j: 0 scratch, 1 stash, 2 cache. -/
def lsplitRole (v : Word) (j : Nat) : Nat := if j < lsplitScr v then 0 else if j < lsplitScr v + lsplitStash v then 1 else 2
/-- Segments that VPOOL lends of a core of its cluster (R143). -/
def vpoolLends (vpool : Word) (core : Nat) : Option Nat :=
  if vpool.getLsbD (8 + core % 8) then some (vpool.extractLsb' 0 4).toNat else none

/-- Is an LSPLIT value legal (R137)? -/
def lsplitLegal (vpool : Word) (core : Nat) (v : Word) : Bool :=
  decide (lsplitScr v + lsplitStash v ≤ 16) &&
    (match vpoolLends vpool core with | some n => decide (n + 1 ≤ lsplitCache v) | none => true)

/-- A stash entry after LSPLIT (R137 step 2): V is cleared where it no longer fits. -/
def stashFit (segs : Nat) (e : Word) : Word :=
  if segs * 4 < (e.extractLsb' 50 6).toNat + (e.extractLsb' 56 7).toNat then e &&& ~~~(0x8000000000000000 : Word) else e
/-- Does a line of a core lose its place to a new split (R137 step 1): its segment leaves the cache or the stash, the stash moves, or its
entry no longer fits? DEDUCED: assumption 52. -/
def Core.loses (c : Core) (v : Word) (x : Line) : Bool :=
  let seg := x.index.toNat / 256
  match x.place with
  | .l1 => lsplitRole c.lsplit seg == 2 && lsplitRole v seg != 2
  | .stash => lsplitScr c.lsplit != lsplitScr v || lsplitRole v seg != 1 ||
      !(stashFit (lsplitStash v) (pick c.stash x.entry.toNat)).getLsbD 63
  | .pool => false
/-- Every line of a core that meets a condition is written back if dirty, and given up. -/
def State.giveUpAll (s : State) (core : Nat) (f : Line → Bool) : State :=
  ((s.core core).lines.filter fun x => f x.2).foldl (fun s x => s.giveUp core x.1) s
/-- Scratch after the flash steps (R137 step 3): every segment of the core that changes role is zeroed.
DEDUCED: assumption 52. -/
def zeroSegments (core : Nat) (old new : Word) (m : Memory) : Memory :=
  m.filter fun e =>
    !(e.1 / 262144 == core && lsplitRole old (e.1 % 262144 / 16384) != lsplitRole new (e.1 % 262144 / 16384))

/-- LSPLIT (R137). DEDUCED: assumption 52. -/
def State.writeLsplit (s : State) (v : Word) : Except Stop State := do
  s.needSup
  need (lsplitLegal (s.cluster s.task.cluster).vpool s.task.core v) Stop.illegalOperand
  let k := s.task.core
  let v := v &&& 0x1F1F
  let s1 := s.giveUpAll k ((s.core k).loses v)
  let c := s1.core k
  .ok ({ s1 with scratch := zeroSegments k c.lsplit v s1.scratch }.setCore k
    { c with lsplit := v, stash := c.stash.map (stashFit (lsplitStash v)) })

/-- VPOOL (R143): the pool's lines are given up first, and those of an L1 segment that is lent. DEDUCED: assumption 52. -/
def State.writeVpool (s : State) (v : Word) : Except Stop State := do
  s.needSup
  let cl := s.task.cluster
  let segs := (v.extractLsb' 0 4).toNat
  need (decide (segs ≤ 8) && (List.range 8).all fun i =>
    !v.getLsbD (8 + i) || decide (segs + 1 ≤ lsplitCache (s.core (8 * cl + i)).lsplit)) Stop.illegalOperand
  let s1 := (List.range 8).foldl (fun s i =>
    let lent := match vpoolLends v i with | some n => n | none => 0
    s.giveUpAll (8 * cl + i) fun x => x.place == .pool || (x.place == .l1 && decide (16 - lent ≤ x.index.toNat / 256))) s
  .ok (s1.setCluster cl { s1.cluster cl with vpool := v &&& 0xFF0F })

/-- Do two ranges of pages meet? -/
def pagesMeet (a n b m : Nat) : Bool := decide (a < b + m) && decide (b < a + n)
/-- Is a valid stash entry legal for a core and an address space (R141)? DEDUCED: assumption 52. -/
def Core.stashLegal (c : Core) (n : Nat) (aspace v : Word) : Bool :=
  decide (1 ≤ stashNpg v) && decide (stashNpg v ≤ 64) && decide (stashLoff v + stashNpg v ≤ lsplitStash c.lsplit * 4) &&
    decide ((stashVbase v + stashNpg v) * 4096 ≤ scratchBase) &&
    (List.range 8).all fun k =>
      let e := pick c.stash k
      k == n || !e.getLsbD 63 || (pick c.stashSpace k).extractLsb' 52 12 != aspace.extractLsb' 52 12 ||
        (!pagesMeet (stashVbase e) (stashNpg e) (stashVbase v) (stashNpg v) &&
          !pagesMeet (stashLoff e) (stashNpg e) (stashLoff v) (stashNpg v))

/-- STASHn (R140, R141). The entry's lines are given up before a valid entry changes. -/
def State.writeStash (s : State) (n : BitVec 3) (v : Word) : Except Stop State := do
  s.needSup
  let c := s.core s.task.core
  need (!v.getLsbD 63 || c.stashLegal n.toNat s.task.aspace v) Stop.illegalOperand
  let s1 := if (pick c.stash n.toNat).getLsbD 63 then s.giveUpAll s.task.core (fun x => x.place == .stash && x.entry == n) else s
  let c1 := s1.core s.task.core
  .ok (s1.setCore s.task.core { c1 with stash := place c1.stash n.toNat (v &&& 0xFFFCFFFFFFFFF000)
                                        stashSpace := place c1.stashSpace n.toNat s.task.aspace })

/-- CAPTn (R229). -/
def captMask : Word := 0x8FFFFFFFFFFFFFFF
def State.writeCapt (s : State) (n : BitVec 4) (v : Word) : Except Stop State := do
  s.needSup
  let c := s.cluster s.task.cluster
  .ok (s.setCluster s.task.cluster { c with capt := place c.capt n.toNat (v &&& captMask) })
/-- CAPNEW (R229): the lowest free entry of the capability table. -/
def State.writeCapnew (s : State) (v : Word) : Except Stop State := do
  s.needSup
  let c := s.cluster s.task.cluster
  match (List.range 16).find? fun k => !(pick c.capt k).getLsbD 63 with
  | none => .error (Stop.resource 5)
  | some k => .ok (s.setCluster s.task.cluster { c with capt := place c.capt k ((v &&& captMask) ||| 0x8000000000000000) })

/-! ### Writes of the queue's registers (R259, R260) -/

/-- Has a send of the executing task through a port still to be accepted by a peer package (R259, R261)? -/
def State.sending (s : State) (n : BitVec 2) : Bool :=
  let pb := (s.task.port n).pb
  s.peerTx.any fun e => e.2.unacked.any fun x =>
    x.2.sender == s.task.tid && x.2.rank == pb.extractLsb' 32 20 && x.2.port == pb.extractLsb' 56 2
/-- PBn: the write stalls until every earlier send through the port has been accepted. -/
def State.writePb (s : State) (n : BitVec 2) (v : Word) : Except Stop State := do
  need (!s.sending n) (.wait .retry)
  .ok (s.setTask (s.task.setPort n { (s.task.port n) with pb := v &&& 0x830FFFFF00000000 }))
/-- RANK, of a task that has no word in its slot's receive queues or in its core's inbound buffer (R257, R259): the core's interface no
longer redirects words for it. -/
def State.writeRank (s : State) (v : Word) : Except Stop State := do
  s.needSup
  let c := s.core s.task.core
  need (s.task.ports.toList.all (fun p => p.queue.isEmpty) && !(c.inbound ++ c.held).any s.task.takes) Stop.illegalOperand
  let s1 := s.setTask { s.task with rank := v &&& 0x80000000000FFFFF }
  let c := s1.core s1.task.core
  .ok (s1.setCore s1.task.core { c with redirect := c.redirect.filter (·.1 != s1.task.rankKey) })
/-- RTNEW. -/
def State.writeRtnew (s : State) (v : Word) : Except Stop State := do
  s.needSup
  need (!v.getLsbD 63 || rankPkg v == 0xFFF || s.feat s.task.tenant 3) Stop.illegalOperand
  let c := s.core s.task.core
  let rest := c.ranks.filter fun e => rankOf e != rankOf v
  if v.getLsbD 63 = false then .ok (s.setCore s.task.core { c with ranks := rest })
  else if 1024 ≤ rest.length then .error (Stop.resource 3)
  else .ok (s.setCore s.task.core { c with ranks := rest ++ [v &&& captMask] })

/-! ### Writes of the debug registers (R369 to R373) -/

/-- Change the paddock of the executing task. -/
def State.modOwn (s : State) (f : Paddock → Paddock) : State := s.modPaddock s.task.tenant f
/-- DRES: restore a stopped task as MIGR does, to the core of its header's word 3. DEDUCED: assumption 51. -/
def State.writeDres (s : State) (v : Word) : Except Stop State := do
  s.needSup
  match s.findTask (v.setWidth 48) with
  | none => .ok s
  | some t => if t.cstate = .preempted ∧ t.tenant = s.task.tenant then s.restoreFor t.tid t.target else .ok s
/-- PRSEL. -/
def State.writePrsel (s : State) (v : Word) : Except Stop State := do
  s.needSup
  let c := s.core s.task.core
  .ok (s.setCore s.task.core { c with prsel := v &&& 0xFF, profile := if v.getLsbD 63 then [] else c.profile })
/-- MONCFGn. -/
def State.writeMoncfg (s : State) (n : BitVec 2) (v : Word) : Except Stop State := do
  s.needSup
  need (!v.getLsbD 3) Stop.illegalOperand
  .ok (s.setCluster s.task.cluster ((s.cluster s.task.cluster).setMonitor n { cfg := v &&& 0x800000FFFFFFFFFF }))
/-- DBGCTL: without trace the mode ignores writes (R383). -/
def Paddock.writeDbgctl (p : Paddock) (v : Word) : Paddock :=
  { p with dbgctl := if p.feat.getLsbD 2 then v &&& 7 else (p.dbgctl &&& 3) ||| (v &&& 4) }

/-! ### Every write -/

/-- ASPACE (R319). -/
def State.writeAspace (s : State) (v : Word) : Except Stop State := do
  s.needSup
  .ok (s.setTask { s.task with aspace := v &&& aspaceMask })
/-- FSR: flags are cleared by writing 1 (R39, R40). -/
def State.writeFsr (s : State) (v : Word) : Except Stop State := .ok (s.setTask { s.task with fsr := s.task.fsr &&& ~~~v })
/-- JSR (R224). -/
def State.writeJsr (s : State) (v : Word) : Except Stop State := do
  s.jsrReady
  .ok (s.setTask { s.task with jsr := s.task.jsr &&& ~~~v })

/-- EINFOn. -/
def Task.setEinfo (t : Task) (n : BitVec 2) (v : Word) : Task :=
  if n = 0 then { t with einfo0 := v } else if n = 1 then { t with einfo1 := v } else { t with einfo2 := v }

/-- What a write that the task may make does (R4, R5, R254): reserved bits are ignored, RO registers unchanged.
DEDUCED: assumption 51. -/
def State.writeTo (s : State) (v : Word) : Reg → Except Stop State
  | .stat => .ok (s.setTask { s.task with stat := v &&& 3 })
  | .epc => .ok (s.setTask { s.task with epc := v &&& ~~~(3 : Word) })
  | .ecause => .ok (s.setTask { s.task with ecause := v &&& 0xFFBF })
  | .einfo n => .ok (s.setTask (s.task.setEinfo n v))
  | .estat => .ok (s.setTask { s.task with estat := v &&& 3 })
  | .tvec => .ok (s.setTask { s.task with tvec := v &&& ~~~(2 : Word) })
  | .ctxa => .ok (s.setTask { s.task with ctxa := v })
  | .fsr => s.writeFsr v
  | .seed => .ok (s.setTask { s.task with seed := if v = 0 then 0x9E3779B97F4A7C15 else v })
  | .lsplit => s.writeLsplit v
  | .vpool => s.writeVpool v
  | .stash n => s.writeStash n v
  | .sst n => .ok (s.setTask (s.task.setStream n { (s.task.stream n) with ev := (s.task.stream n).ev &&& ~~~(v.extractLsb' 8 4) }))
  | .twin => .ok (s.setTask { s.task with twin := v &&& twinMask })
  | .jsr => s.writeJsr v
  | .capnew => s.writeCapnew v
  | .capt n => s.writeCapt n v
  | .pb n => s.writePb n v
  | .rank => s.writeRank v
  | .rtnew => s.writeRtnew v
  | .aspace => s.writeAspace v
  | .pfres => s.pfres v
  | .mkclr => s.mkclr v
  | .dbgctl => .ok (s.modOwn fun p => p.writeDbgctl v)
  | .dbgq => .ok (s.modOwn fun p => { p with dbgq := v })
  | .dres => s.writeDres v
  | .prsel => s.writePrsel v
  | .monsel => .ok (s.setCluster s.task.cluster { s.cluster s.task.cluster with monsel := v &&& 0x7F })
  | .moncfg n => s.writeMoncfg n v
  | .stop n => .ok (s.modOwn fun p => { p with stops := place p.stops n.toNat (v &&& 0xE000FFFFFFFFFFFF) })
  | .stopa n => .ok (s.modOwn fun p => { p with stopa := place p.stopa n.toNat v })
  | .tid => .ok s
  | .sgen => .ok s
  | .kcur => .ok s
  | .gclk => .ok s
  | .prdat => .ok s
  | .mondat => .ok s
  | .feat0 => .ok s
  | .feat1 => .ok s
  | .pblk => .ok s
  | .bootn => .ok s

/-- May the executing task write a register (R235, R368, R382)? DEDUCED: assumption 51. -/
def State.mayWrite (s : State) (r : Reg) : Bool :=
  match r.writer with | .any | .ignored => true | .sup => s.task.sup | .never => false

/-- The register that the executing task names for a write (R235). -/
def State.writable (s : State) (n : BitVec 12) : Except Stop Reg :=
  match regOf n with
  | none => .error Stop.illegalOperand
  | some r => if s.mayWrite r then .ok r else .error Stop.privilege
/-- A write of a register by the executing task (R254). -/
def State.writeReg (s : State) (n : BitVec 12) (v : Word) : Except Stop State := do
  let r ← s.writable n
  s.writeTo v r

/-- CSRR (R254): the register number is imm13[11:0]. -/
def execCsrr (o : Ops) (s : State) : Host.Outcome State Fault Refusal :=
  s.run (.csrr o) (do
    let v ← s.readReg (o.imm.setWidth 12)
    s.complete o v)

/-- CSRW (R254). -/
def execCsrw (o : Ops) (s : State) : Host.Outcome State Fault Refusal :=
  s.run (.csrw o) (do
    let r ← s.writable (o.imm.setWidth 12)
    let a ← s.srcA o
    let s1 ← s.writeTo a r
    .ok ((s1.take o).advance o))

/-! ### The events of register writes -/

/-- A register operation of the executing task as an event: its effect, or the trap of the instruction that makes it. -/
def State.regEvent (s : State) (r : Except Stop State) : Host.Outcome State Fault Refusal :=
  .next (if s.task.cstate = .running then
      match r with
      | .ok t => t
      | .error (.trap t) => s.trap (trapWord t s.wordAtPc)
      | .error (.wait w) => s.stall w
      | .error (.park va level code) => s.parkGroup va level code
      | .error (.data va pa) => s.setTask { s.task with dataErr := some (va, s.task.pc, pa) }
      | .error (.partly t w) => t.stall w
    else s)

/-- LSPLIT_WRITE (R137). -/
def execLsplitWrite (v : Word) (s : State) : Host.Outcome State Fault Refusal := s.regEvent (s.writeLsplit v)
/-- VPOOL_WRITE (R143). -/
def execVpoolWrite (v : Word) (s : State) : Host.Outcome State Fault Refusal := s.regEvent (s.writeVpool v)
/-- STASH_ENTRY_WRITE (R141). -/
def execStashEntryWrite (n : BitVec 3) (v : Word) (s : State) : Host.Outcome State Fault Refusal := s.regEvent (s.writeStash n v)
/-- FSR_ACCESS (R40): in this model every earlier instruction has merged its flags. -/
def execFsrAccess (write : Option Word) (s : State) : Host.Outcome State Fault Refusal :=
  s.regEvent (match write with | none => .ok s | some v => s.writeFsr v)
/-- JSR_ACCESS (R224). -/
def execJsrAccess (write : Option Word) (s : State) : Host.Outcome State Fault Refusal :=
  s.regEvent (match write with | none => (do s.jsrReady; .ok s) | some v => s.writeJsr v)
/-- ASPACE_WRITE (R319). -/
def execAspaceWrite (v : Word) (s : State) : Host.Outcome State Fault Refusal := s.regEvent (s.writeAspace v)
/-- PB_WRITE (R259). -/
def execPbWrite (n : BitVec 2) (v : Word) (s : State) : Host.Outcome State Fault Refusal := s.regEvent (s.writePb n v)
/-- RANK_WRITE (R259). -/
def execRankWrite (v : Word) (s : State) : Host.Outcome State Fault Refusal := s.regEvent (s.writeRank v)
/-- RTNEW (R260). -/
def execRtnew (v : Word) (s : State) : Host.Outcome State Fault Refusal := s.regEvent (s.writeRtnew v)
/-- CAPNEW (R229). -/
def execCapnew (v : Word) (s : State) : Host.Outcome State Fault Refusal := s.regEvent (s.writeCapnew v)
/-- MKCLR (R330). -/
def execMkclr (v : Word) (s : State) : Host.Outcome State Fault Refusal := s.regEvent (s.mkclr v)
/-- PFRES (R335). -/
def execPfres (v : Word) (s : State) : Host.Outcome State Fault Refusal := s.regEvent (s.pfres v)
/-- DRES (R369). -/
def execDres (v : Word) (s : State) : Host.Outcome State Fault Refusal := s.regEvent (s.writeDres v)
/-- PRSEL_WRITE (R371). -/
def execPrselWrite (v : Word) (s : State) : Host.Outcome State Fault Refusal := s.regEvent (s.writePrsel v)
/-- MONCFG_WRITE (R372). -/
def execMoncfgWrite (n : BitVec 2) (v : Word) (s : State) : Host.Outcome State Fault Refusal := s.regEvent (s.writeMoncfg n v)
/-- REGISTER_WRITE (R254). -/
def execRegisterWrite (n : BitVec 12) (v : Word) (s : State) : Host.Outcome State Fault Refusal := s.regEvent (s.writeReg n v)

/-! ### The sideband debugger (R368, R377) -/

/-- Is a register open to a sideband debugger of a paddock (R368, R377)? GCLK needs no feature, DBGQ any; those of a core or a cluster are
open for the paddock's own cores. DEDUCED: assumption 57. -/
def State.regOpen (s : State) (tenant : BitVec 12) (core : Nat) : Reg → Bool
  | .gclk => true
  | .dbgq => (List.range 6).any (s.debugOpen tenant)
  | .dbgctl => s.debugOpen tenant 4
  | .dres | .stop _ | .stopa _ => s.debugOpen tenant 0
  | .prsel | .prdat => s.debugOpen tenant 2 && s.ownCore tenant core
  | .monsel | .mondat | .moncfg _ => s.debugOpen tenant 3 && s.ownCore tenant core
  | _ => false
/-- The register as a debugger of a paddock at a core reaches it: as a supervisor task there would. -/
def debugTask (tenant : BitVec 12) (core : Nat) : Task := { tid := tenant ++ 0#36, core := core, stat := 1 }
/-- What a sideband read of a register returns: 0 where the debugger may not read it. -/
def State.sidebandRead (s : State) (tenant : BitVec 12) (core : Nat) (n : BitVec 12) : Word :=
  match regOf n with
  | none => 0
  | some r => if s.regOpen tenant core r then (s.setTask (debugTask tenant core)).regValue r else 0
/-- What a sideband write of an open register does. -/
def State.sidebandTry (s : State) (tenant : BitVec 12) (core : Nat) (r : Reg) (v : Word) : Except Stop State :=
  match ({ s with task := debugTask tenant core, others := s.task :: s.others } : State).writeTo v r with
  | .error e => .error e
  | .ok s1 =>
    match s1.others.find? (·.tid == s.task.tid) with
    | none => .ok s
    | some t => .ok { s1 with task := t, others := s1.others.eraseP (·.tid == s.task.tid) }
/-- A sideband write of a register: ignored where the debugger may not write it, or where the value is illegal; a restore that must wait is
kept (R369). DEDUCED: assumption 57. -/
def State.sidebandWrite (s : State) (tenant : BitVec 12) (core : Nat) (n : BitVec 12) (v : Word) : State :=
  match regOf n with
  | none => s
  | some r =>
    if s.regOpen tenant core r then
      match s.sidebandTry tenant core r v with
      | .ok s1 => s1
      | .error (.wait _) => if r = .dres then s.modPaddock tenant fun p => { p with restores := p.restores ++ [v.setWidth 48] } else s
      | .error _ => s
    else s
/-- A restore that a sideband debugger has asked for is made once it need wait no longer. -/
def State.takeRestore (s : State) (tenant : BitVec 12) : State :=
  match s.paddock tenant with
  | none => s
  | some p =>
    let tried (tid : Tid) : Except Stop State := s.sidebandTry tenant 0 .dres (tid.setWidth 64)
    match p.restores.find? fun tid => match tried tid with | .error (.wait _) => false | _ => true with
    | none => s
    | some tid =>
      (match tried tid with | .ok s1 => s1 | .error _ => s).modPaddock tenant fun p => { p with restores := p.restores.erase tid }

end Sys2Proof.Machine
end

