-- ==== Sys2Proof/Machine/Background.lean ====
section
/-! DEFINITION. What the package does when the executing task cannot issue and no event is scheduled: the first work of the
device's units that can move on does; where none can, a stall that may end ends (DESIGN CHOICE, assumption 1). -/

namespace Sys2Proof.Machine

open Sys2Proof

/-- Work of the cores' interfaces and ready queues (R236, R262). -/
def State.coreWork (s : State) : List (State → State) :=
  s.cores.flatMap fun c => [(fun s => s.refill c.1), (fun s => s.takeReady c.1 8)]

/-- Work of stream n of a task (R180 to R192). -/
def streamWork (tid : Tid) (n : BitVec 2) : List (State → State) :=
  [(fun s => s.elementArrival tid n), (fun s => s.aliasAnswer tid n), (fun s => s.saddlebagHome tid n), (fun s => s.coreFetch tid n),
   (fun s => s.indexedFetch tid n), (fun s => s.stationFetch tid n), (fun s => s.leaveStation tid n), (fun s => s.arriveStation tid n),
   (fun s => s.elementFault tid n), (fun s => s.rereadPending tid n), (fun s => s.streamSink tid n)]
/-- Work for a task: the save after a halt, forwarded words, its tile access, its streams. -/
def taskWork (tid : Tid) : List (State → State) :=
  [(fun s => s.saveHalted tid), (fun s => s.forward tid), (fun s => s.asTask tid State.acquireHalter), (fun s => s.asTask tid State.tryCommit),
   (fun s => s.asTask tid State.markTimeout), (fun s => s.heldDiverges tid)] ++
    (List.range 4).flatMap fun n => streamWork tid (BitVec.ofNat 2 n)

/-- The records of stores that wait to mark a line (R328). -/
def State.markWork (s : State) : List (State → State) :=
  (s.tasks.flatMap fun t => t.markLines.map fun l => fun s => s.groomRecord t.tid l 0) ++
    (s.clusters.flatMap fun e => e.2.copies.flatMap fun c => c.markLines.map fun l => fun s => s.groomRecord c.tid l c.descVa)
/-- Work of a command of a copy unit (R273 to R275). DEDUCED: assumption 35. -/
def copyWork (cluster i : Nat) : List (State → State) :=
  [(fun s => s.resumeCopy cluster i), (fun s => s.copyBody cluster i)] ++
    ((List.range 8).map fun r => fun s => s.copyReceiver cluster i r) ++ [(fun s => s.copyEnd cluster i)]
/-- Work of a cluster's engine and copy unit. -/
def clusterWork (c : Nat × Cluster) : List (State → State) :=
  ((List.range 32).map fun e => fun s => s.completeJob c.1 e) ++
    [(fun s => s.setCluster c.1 ((s.cluster c.1).kstep s.clk))] ++ (List.range c.2.copies.length).flatMap (copyWork c.1)

/-- Work for kernel `n` of a paddock (R279, R283, R285). -/
def kernelWork (tenant : BitVec 12) (p : Paddock) (n : Nat) : List (State → State) :=
  let kid := BitVec.ofNat 6 n
  ((List.range (p.kernel kid).stages.length).map fun g => fun s => s.placeEntry tenant kid g) ++
    ((p.kernel kid).stages.flatMap (·.joining)).map (fun x => fun s => s.rebind tenant kid x.1) ++
    [(fun s => s.periodEnd tenant kid), (fun s => s.retire tenant kid)]
/-- Work for a paddock. -/
def paddockWork (p : Paddock) : List (State → State) :=
  let t := p.cfg.tenant
  [(fun s => s.flushDebug t), (fun s => s.writeDump t), (fun s => s.startSupervisor t), (fun s => s.takeRestore t)] ++
    (p.vfs.flatMap fun v => [(fun s => s.flushRecord t v.1), (fun s => s.takeLaunch t v.1), (fun s => s.takeResume t v.1)]) ++
    (List.range 64).flatMap (kernelWork t p)

/-- The next state of an event that always has one. -/
def nextOf (f : State → Host.Outcome State Fault Refusal) (s : State) : State := match f s with | .next t => t | _ => s
/-- Work of the hand-over of a stack (R344). -/
def stackWork (k : BitVec 4) : List (State → State) :=
  [nextOf (execHandoverMark k), nextOf (execHandoverDrain k), nextOf (execHandoverWriteback k), nextOf (execHandoverShootdown k),
   nextOf (execHandoverPortSwitch k), nextOf (execHandoverFlip k), nextOf (execHandoverComplete k)]

/-- The work that may be due; the engines of a cluster work while its clocks run (R21). DESIGN CHOICE: assumption 1. -/
def State.work (s : State) : List (State → State) :=
  [State.linkWork, State.releaseAdd, State.hostWork, State.walkWork] ++ s.coreWork ++ s.tasks.flatMap (fun t => taskWork t.tid) ++
    (s.clusters.filter fun c => s.clocked c.1).flatMap clusterWork ++
    s.markWork ++ s.mailboxes.map (fun m => fun s => s.activate m.pa) ++ s.paddocks.flatMap paddockWork ++
    (List.range 16).flatMap fun k => stackWork (BitVec.ofNat 4 k)

/-- The first piece of work that changes something. -/
def firstChange (s : State) : List (State → State) → Option State
  | [] => none
  | f :: l => if f s = s then firstChange s l else some (f s)

/-- The executing task cannot issue: the first other task that is running, or whose stall may end, goes on; else the executing
task's own stall may end. DESIGN CHOICE: assumption 1. -/
def State.wake (s : State) : State :=
  match s.others.find? (fun t => t.cstate == .running || s.mayResume t) with
  | some t => { s.switchTo t.tid with task := t.resume }
  | none => if s.mayResume s.task then s.setTask s.task.resume else s

/-- Nothing is scheduled and the executing task cannot issue. DESIGN CHOICE: assumption 1. -/
def State.idle (s : State) : State := (firstChange s s.work).getD s.wake

end Sys2Proof.Machine
end

