-- ==== Sys2Proof/Machine/Outside.lean ====
section
/-! DEFINITION. What reads and writes the package from outside: the host through CXL and through the base-address registers of its
functions (R359, R364, R365, R378), the farrier monitor and a debugger through the sideband (R359, R368, R377, R378). -/

namespace Sys2Proof.Machine

open Sys2Proof

/-- The status image of a link (R359). -/
def State.linkImage (s : State) (n : Nat) : Word := match s.links[n]? with | some l => l.image | none => 0
/-- The byte at an offset of BAR0 of the physical function: link images from 0x1000 (R359), the identity key from 0x2000 (R378); every
other offset reads 0. DEDUCED: assumption 67. -/
def State.functionByte (s : State) (off : Nat) : Byte :=
  if 0x1000 ≤ off ∧ off < 0x1000 + 8 * 17 then (s.linkImage ((off - 0x1000) / 8)).extractLsb' (8 * (off % 8)) 8
  else if 0x2000 ≤ off ∧ off < 0x2060 then Config.identityKey.extractLsb' (8 * (off - 0x2000)) 8
  else 0
/-- What the sideband reads of the farrier complex: the image of link n (R359); past the links the step and the cause of a boot that failed,
and then the identity key (R378). DEDUCED: assumption 67. -/
def State.farrierBytes (s : State) (n : Nat) : List Byte :=
  if n < 17 then bytesOf 8 (s.linkImage n).toNat
  else if n = 17 then (match s.boot.failed with | some (step, cause) => [step.setWidth 8, cause] | none => [])
  else if n = 18 then bytesOf 96 Config.identityKey.toNat
  else []

/-- Bytes of the context area of a task that a debugger with feature 1 reads (R377). DEDUCED: assumption 57. -/
def State.areaBytes (s : State) (tid : Tid) (off n : Nat) : List Byte :=
  match s.findTask tid with
  | none => []
  | some t =>
    if s.debugOpen t.tenant 1 then
      match s.areaPas t with
      | none => []
      | some l => ((List.range n).filter fun i => off + i < 64 * l.length).map fun i => s.mem.byte (l.getD ((off + i) / 64) 0 + (off + i) % 64)
    else []
/-- Bytes of memory that a debugger with feature 5 reads through the sideband, of stacks whose paddock its token opens (R377).
DEDUCED: assumption 57. -/
def State.sidebandBytes (s : State) (pa n : Nat) : List Byte :=
  if (hostLines pa n).all (fun l => match (s.stack (stackOf (64 * l))).tenant with | some t => s.debugOpen t 5 | none => s.boot.lcs == 0)
  then s.bytesAt pa n else []

/-- HOST_MEMORY_ACCESS (R364): an access to memory through CXL is performed, or held until it can be; a read of a register from outside
returns what the register reads. Writes of the doorbell page are rows of their own.
DEDUCED: assumption 57. DEDUCED: assumption 60. DESIGN CHOICE: assumption 61. DEDUCED: assumption 67. -/
def execHostMemoryAccess (target : HostTarget) (n : Nat) (write : Option (List Byte)) (s : State) :
    Host.Outcome State Fault Refusal :=
  match target, write with
  | .memory pa, _ =>
    let m := match write with | some l => l.length | none => n
    if 2 ^ 39 < pa + m then .fault (.outsideMemory pa)
    else .next (if m = 0 then s else s.hostAccess { pa := pa, n := m, write := write })
  | .doorbell tenant vf off, none =>
    .next (match s.hostLinkUp, s.paddock tenant with
      | true, some p =>
        if p.cfg.vfs.getLsbD vf.toNat then { s with out := (List.range n).map fun i => s.doorbellByte tenant vf.toNat (off + i) } else s
      | _, _ => s)
  | .function off, none => .next (if s.hostLinkUp then { s with out := (List.range n).map fun i => s.functionByte (off + i) } else s)
  | .link k, none => .next { s with out := s.farrierBytes k }
  | .register tenant core k, none => .next { s with out := bytesOf 8 (s.sidebandRead tenant core k).toNat }
  | .register tenant core k, some l => .next (s.sidebandWrite tenant core k (BitVec.ofNat 64 (leBytes l)))
  | .area tid off, none => .next { s with out := s.areaBytes tid off n }
  | .sideband pa, none =>
    if 2 ^ 39 < pa + n then .fault (.outsideMemory pa) else .next { s with out := if n = 0 then [] else s.sidebandBytes pa n }
  | _, some _ => .next s

end Sys2Proof.Machine
end

