-- ==== Sys2Proof/Machine/Dispatch.lean ====
section
/-! DEFINITION. What each instruction and each event does: one arm per constructor, each a call of its own meaning. -/

namespace Sys2Proof.Machine

open Sys2Proof

/-- The outcome of one instruction or event. -/
def exec (i : Instr) (s : State) : Host.Outcome State Fault Refusal :=
  match i with
  | .nop o => Sys2Proof.Machine.execNop o s
  | .add o => Sys2Proof.Machine.execAdd o s
  | .sub o => Sys2Proof.Machine.execSub o s
  | .mul o => Sys2Proof.Machine.execMul o s
  | .mulh o => Sys2Proof.Machine.execMulh o s
  | .div o => Sys2Proof.Machine.execDiv o s
  | .rem o => Sys2Proof.Machine.execRem o s
  | .and o => Sys2Proof.Machine.execAnd o s
  | .or o => Sys2Proof.Machine.execOr o s
  | .xor o => Sys2Proof.Machine.execXor o s
  | .andn o => Sys2Proof.Machine.execAndn o s
  | .orn o => Sys2Proof.Machine.execOrn o s
  | .xnor o => Sys2Proof.Machine.execXnor o s
  | .shl o => Sys2Proof.Machine.execShl o s
  | .shr o => Sys2Proof.Machine.execShr o s
  | .sar o => Sys2Proof.Machine.execSar o s
  | .rol o => Sys2Proof.Machine.execRol o s
  | .ror o => Sys2Proof.Machine.execRor o s
  | .min o => Sys2Proof.Machine.execMin o s
  | .max o => Sys2Proof.Machine.execMax o s
  | .cmp k o => Sys2Proof.Machine.execCmp k o s
  | .sel o => Sys2Proof.Machine.execSel o s
  | .addi o => Sys2Proof.Machine.execAddi o s
  | .andi o => Sys2Proof.Machine.execAndi o s
  | .ori o => Sys2Proof.Machine.execOri o s
  | .xori o => Sys2Proof.Machine.execXori o s
  | .shli o => Sys2Proof.Machine.execShli o s
  | .shri o => Sys2Proof.Machine.execShri o s
  | .sari o => Sys2Proof.Machine.execSari o s
  | .roli o => Sys2Proof.Machine.execRoli o s
  | .rori o => Sys2Proof.Machine.execRori o s
  | .li o => Sys2Proof.Machine.execLi o s
  | .lih o => Sys2Proof.Machine.execLih o s
  | .beq o => Sys2Proof.Machine.execBeq o s
  | .bne o => Sys2Proof.Machine.execBne o s
  | .blt o => Sys2Proof.Machine.execBlt o s
  | .bge o => Sys2Proof.Machine.execBge o s
  | .blo o => Sys2Proof.Machine.execBlo o s
  | .bhs o => Sys2Proof.Machine.execBhs o s
  | .jal o => Sys2Proof.Machine.execJal o s
  | .jalr o => Sys2Proof.Machine.execJalr o s
  | .addpc o => Sys2Proof.Machine.execAddpc o s
  | .ld o => Sys2Proof.Machine.execLd o s
  | .st o => Sys2Proof.Machine.execSt o s
  | .amo k o => Sys2Proof.Machine.execAmo k o s
  | .cas o => Sys2Proof.Machine.execCas o s
  | .famo o => Sys2Proof.Machine.execFamo o s
  | .fence o => Sys2Proof.Machine.execFence o s
  | .pubc o => Sys2Proof.Machine.execPubc o s
  | .vld o => Sys2Proof.Machine.execVld o s
  | .vst o => Sys2Proof.Machine.execVst o s
  | .vadd o => Sys2Proof.Machine.execVadd o s
  | .vsub o => Sys2Proof.Machine.execVsub o s
  | .vmul o => Sys2Proof.Machine.execVmul o s
  | .vmulh o => Sys2Proof.Machine.execVmulh o s
  | .vdiv o => Sys2Proof.Machine.execVdiv o s
  | .vmin o => Sys2Proof.Machine.execVmin o s
  | .vmax o => Sys2Proof.Machine.execVmax o s
  | .vabs o => Sys2Proof.Machine.execVabs o s
  | .vneg o => Sys2Proof.Machine.execVneg o s
  | .vand o => Sys2Proof.Machine.execVand o s
  | .vor o => Sys2Proof.Machine.execVor o s
  | .vxor o => Sys2Proof.Machine.execVxor o s
  | .vandn o => Sys2Proof.Machine.execVandn o s
  | .vfma o => Sys2Proof.Machine.execVfma o s
  | .vfms o => Sys2Proof.Machine.execVfms o s
  | .vfnma o => Sys2Proof.Machine.execVfnma o s
  | .vfnms o => Sys2Proof.Machine.execVfnms o s
  | .vshl o => Sys2Proof.Machine.execVshl o s
  | .vshr o => Sys2Proof.Machine.execVshr o s
  | .vsar o => Sys2Proof.Machine.execVsar o s
  | .vrol o => Sys2Proof.Machine.execVrol o s
  | .vror o => Sys2Proof.Machine.execVror o s
  | .vcmp k o => Sys2Proof.Machine.execVcmp k o s
  | .vsel o => Sys2Proof.Machine.execVsel o s
  | .vcvt o => Sys2Proof.Machine.execVcvt o s
  | .vdot o => Sys2Proof.Machine.execVdot o s
  | .vred k o => Sys2Proof.Machine.execVred k o s
  | .vpermTbl o => Sys2Proof.Machine.execVpermTbl o s
  | .vpermBcast o => Sys2Proof.Machine.execVpermBcast o s
  | .vpermRev o => Sys2Proof.Machine.execVpermRev o s
  | .vsf k o => Sys2Proof.Machine.execVsf k o s
  | .vtopk o => Sys2Proof.Machine.execVtopk o s
  | .pset o => Sys2Proof.Machine.execPset o s
  | .pcnt o => Sys2Proof.Machine.execPcnt o s
  | .prd o => Sys2Proof.Machine.execPrd o s
  | .pwr o => Sys2Proof.Machine.execPwr o s
  | .pbrk o => Sys2Proof.Machine.execPbrk o s
  | .vmovCopy o => Sys2Proof.Machine.execVmovCopy o s
  | .vmovBcast o => Sys2Proof.Machine.execVmovBcast o s
  | .vmovGet o => Sys2Proof.Machine.execVmovGet o s
  | .vmovSet o => Sys2Proof.Machine.execVmovSet o s
  | .vldb o => Sys2Proof.Machine.execVldb o s
  | .vstb o => Sys2Proof.Machine.execVstb o s
  | .sdef o => Sys2Proof.Machine.execSdef o s
  | .sgo o => Sys2Proof.Machine.execSgo o s
  | .snext o => Sys2Proof.Machine.execSnext o s
  | .snextVector o => Sys2Proof.Machine.execSnextVector o s
  | .sput o => Sys2Proof.Machine.execSput o s
  | .sputVector o => Sys2Proof.Machine.execSputVector o s
  | .ssink o => Sys2Proof.Machine.execSsink o s
  | .srecall o => Sys2Proof.Machine.execSrecall o s
  | .swaitHome o => Sys2Proof.Machine.execSwaitHome o s
  | .swaitEnd o => Sys2Proof.Machine.execSwaitEnd o s
  | .sstat o => Sys2Proof.Machine.execSstat o s
  | .sstatClr o => Sys2Proof.Machine.execSstatClr o s
  | .shold o => Sys2Proof.Machine.execShold o s
  | .sholdOff o => Sys2Proof.Machine.execSholdOff o s
  | .sfree o => Sys2Proof.Machine.execSfree o s
  | .tld o => Sys2Proof.Machine.execTld o s
  | .tst o => Sys2Proof.Machine.execTst o s
  | .tzero o => Sys2Proof.Machine.execTzero o s
  | .tfill o => Sys2Proof.Machine.execTfill o s
  | .tcvt o => Sys2Proof.Machine.execTcvt o s
  | .tmov o => Sys2Proof.Machine.execTmov o s
  | .mma o => Sys2Proof.Machine.execMma o s
  | .mmaWbuf o => Sys2Proof.Machine.execMmaWbuf o s
  | .mjob o => Sys2Proof.Machine.execMjob o s
  | .jpoll o => Sys2Proof.Machine.execJpoll o s
  | .jwait o => Sys2Proof.Machine.execJwait o s
  | .wld o => Sys2Proof.Machine.execWld o s
  | .spawn o => Sys2Proof.Machine.execSpawn o s
  | .exit o => Sys2Proof.Machine.execExit o s
  | .exitDump o => Sys2Proof.Machine.execExitDump o s
  | .yield o => Sys2Proof.Machine.execYield o s
  | .yieldSwap o => Sys2Proof.Machine.execYieldSwap o s
  | .tid o => Sys2Proof.Machine.execTid o s
  | .tidLoc o => Sys2Proof.Machine.execTidLoc o s
  | .trap o => Sys2Proof.Machine.execTrap o s
  | .eret o => Sys2Proof.Machine.execEret o s
  | .csrr o => Sys2Proof.Machine.execCsrr o s
  | .csrw o => Sys2Proof.Machine.execCsrw o s
  | .wfe o => Sys2Proof.Machine.execWfe o s
  | .bkpt o => Sys2Proof.Machine.execBkpt o s
  | .migr o => Sys2Proof.Machine.execMigr o s
  | .sendm o => Sys2Proof.Machine.execSendm o s
  | .mbind o => Sys2Proof.Machine.execMbind o s
  | .mfree o => Sys2Proof.Machine.execMfree o s
  | .rawaitProd o => Sys2Proof.Machine.execRawaitProd o s
  | .rawaitCons o => Sys2Proof.Machine.execRawaitCons o s
  | .rrelProd o => Sys2Proof.Machine.execRrelProd o s
  | .rrelCons o => Sys2Proof.Machine.execRrelCons o s
  | .cpy o => Sys2Proof.Machine.execCpy o s
  | .cpym o => Sys2Proof.Machine.execCpym o s
  | .launch o => Sys2Proof.Machine.execLaunch o s
  | .launchDrain o => Sys2Proof.Machine.execLaunchDrain o s
  | .launchStat o => Sys2Proof.Machine.execLaunchStat o s
  | .launchAbort o => Sys2Proof.Machine.execLaunchAbort o s
  | .emit o => Sys2Proof.Machine.execEmit o s
  | .join o => Sys2Proof.Machine.execJoin o s
  | .leave o => Sys2Proof.Machine.execLeave o s
  | .ginfoHdr o => Sys2Proof.Machine.execGinfoHdr o s
  | .ginfoMem o => Sys2Proof.Machine.execGinfoMem o s
  | .ginfoTid o => Sys2Proof.Machine.execGinfoTid o s
  | .cadd o => Sys2Proof.Machine.execCadd o s
  | .caddSet o => Sys2Proof.Machine.execCaddSet o s
  | .cwait o => Sys2Proof.Machine.execCwait o s
  | .crd o => Sys2Proof.Machine.execCrd o s
  | .bexpect o => Sys2Proof.Machine.execBexpect o s
  | .bexpectInit o => Sys2Proof.Machine.execBexpectInit o s
  | .bexpectGrp o => Sys2Proof.Machine.execBexpectGrp o s
  | .barrive o => Sys2Proof.Machine.execBarrive o s
  | .bwait o => Sys2Proof.Machine.execBwait o s
  | .tlbiVa o => Sys2Proof.Machine.execTlbiVa o s
  | .tlbiAs o => Sys2Proof.Machine.execTlbiAs o s
  | .tlbiFrm o => Sys2Proof.Machine.execTlbiFrm o s
  | .tlbiAll o => Sys2Proof.Machine.execTlbiAll o s
  | .probeR o => Sys2Proof.Machine.execProbeR o s
  | .probeW o => Sys2Proof.Machine.execProbeW o s
  | .probeX o => Sys2Proof.Machine.execProbeX o s
  | .stkGive o => Sys2Proof.Machine.execStkGive o s
  | .stkStat o => Sys2Proof.Machine.execStkStat o s
  | .illegalInstruction cause word => Sys2Proof.Machine.execIllegalInstruction cause word s
  | .instructionFetch => Sys2Proof.Machine.execInstructionFetch s
  | .issue core => Sys2Proof.Machine.execIssue core s
  | .longLatencyResult tid => Sys2Proof.Machine.execLongLatencyResult tid s
  | .trapEntry t => Sys2Proof.Machine.execTrapEntry t s
  | .dataError tid dest pc pa => Sys2Proof.Machine.execDataError tid dest pc pa s
  | .dumpWrite tenant => Sys2Proof.Machine.execDumpWrite tenant s
  | .preemptRequest tid => Sys2Proof.Machine.execPreemptRequest tid s
  | .contextSave tid => Sys2Proof.Machine.execContextSave tid s
  | .contextRestore tid core => Sys2Proof.Machine.execContextRestore tid core s
  | .readyQueueTake core => Sys2Proof.Machine.execReadyQueueTake core s
  | .migrationForward tid => Sys2Proof.Machine.execMigrationForward tid s
  | .yieldCountExpiry tid => Sys2Proof.Machine.execYieldCountExpiry tid s
  | .wfeWake tid => Sys2Proof.Machine.execWfeWake tid s
  | .wfeTimeout tid => Sys2Proof.Machine.execWfeTimeout tid s
  | .lsplitWrite v => Sys2Proof.Machine.execLsplitWrite v s
  | .vpoolWrite v => Sys2Proof.Machine.execVpoolWrite v s
  | .stashEntryWrite n v => Sys2Proof.Machine.execStashEntryWrite n v s
  | .fsrAccess write => Sys2Proof.Machine.execFsrAccess write s
  | .jsrAccess write => Sys2Proof.Machine.execJsrAccess write s
  | .aspaceWrite v => Sys2Proof.Machine.execAspaceWrite v s
  | .pbWrite n v => Sys2Proof.Machine.execPbWrite n v s
  | .rankWrite v => Sys2Proof.Machine.execRankWrite v s
  | .rtnew v => Sys2Proof.Machine.execRtnew v s
  | .capnew v => Sys2Proof.Machine.execCapnew v s
  | .mkclr v => Sys2Proof.Machine.execMkclr v s
  | .pfres v => Sys2Proof.Machine.execPfres v s
  | .dres v => Sys2Proof.Machine.execDres v s
  | .prselWrite v => Sys2Proof.Machine.execPrselWrite v s
  | .moncfgWrite n v => Sys2Proof.Machine.execMoncfgWrite n v s
  | .registerWrite n v => Sys2Proof.Machine.execRegisterWrite n v s
  | .portWordSend n v => Sys2Proof.Machine.execPortWordSend n v s
  | .portWordArrival core w => Sys2Proof.Machine.execPortWordArrival core w s
  | .slotQueueRefill core => Sys2Proof.Machine.execSlotQueueRefill core s
  | .mailboxActivation pa => Sys2Proof.Machine.execMailboxActivation pa s
  | .ringMonitorWake tid => Sys2Proof.Machine.execRingMonitorWake tid s
  | .faultRecordPost tenant vf => Sys2Proof.Machine.execFaultRecordPost tenant vf s
  | .copyCommand cluster k => Sys2Proof.Machine.execCopyCommand cluster k s
  | .copyCompletion cluster k => Sys2Proof.Machine.execCopyCompletion cluster k s
  | .cpymReceiver cluster k r => Sys2Proof.Machine.execCpymReceiver cluster k r s
  | .copyPageResume cluster k => Sys2Proof.Machine.execCopyPageResume cluster k s
  | .jobAccept cluster record tid => Sys2Proof.Machine.execJobAccept cluster record tid s
  | .remoteJobArrival cluster record tid tenant => Sys2Proof.Machine.execRemoteJobArrival cluster record tid tenant s
  | .jobQuery tid handle => Sys2Proof.Machine.execJobQuery tid handle s
  | .kstepComplete cluster => Sys2Proof.Machine.execKstepComplete cluster s
  | .jobKstep cluster => Sys2Proof.Machine.execJobKstep cluster s
  | .jobCompletion cluster entry => Sys2Proof.Machine.execJobCompletion cluster entry s
  | .jobPriorityAgeing cluster entry => Sys2Proof.Machine.execJobPriorityAgeing cluster entry s
  | .jobHold cluster entry => Sys2Proof.Machine.execJobHold cluster entry s
  | .jobCancel cluster entry => Sys2Proof.Machine.execJobCancel cluster entry s
  | .tileAccessCommit tid => Sys2Proof.Machine.execTileAccessCommit tid s
  | .halterAcquire tid => Sys2Proof.Machine.execHalterAcquire tid s
  | .tileAccessRollback tid => Sys2Proof.Machine.execTileAccessRollback tid s
  | .streamFloat tid r => Sys2Proof.Machine.execStreamFloat tid r s
  | .saddlebagLeave tid r => Sys2Proof.Machine.execSaddlebagLeave tid r s
  | .saddlebagArrive tid r => Sys2Proof.Machine.execSaddlebagArrive tid r s
  | .stationElementFetch tid r => Sys2Proof.Machine.execStationElementFetch tid r s
  | .coreElementFetch tid r => Sys2Proof.Machine.execCoreElementFetch tid r s
  | .elementArrival tid r => Sys2Proof.Machine.execElementArrival tid r s
  | .aliasNote tid r j => Sys2Proof.Machine.execAliasNote tid r j s
  | .aliasRereadAnswer tid r => Sys2Proof.Machine.execAliasRereadAnswer tid r s
  | .elementFault tid r => Sys2Proof.Machine.execElementFault tid r s
  | .saddlebagHome tid r => Sys2Proof.Machine.execSaddlebagHome tid r s
  | .streamSink tid r => Sys2Proof.Machine.execStreamSink tid r s
  | .indexedElementRequest tid r => Sys2Proof.Machine.execIndexedElementRequest tid r s
  | .demandPagingFault va code => Sys2Proof.Machine.execDemandPagingFault va code s
  | .pageWalk core aspace va fetch => Sys2Proof.Machine.execPageWalk core aspace va fetch s
  | .codeStoreMark tid die pa => Sys2Proof.Machine.execCodeStoreMark tid die pa s
  | .codeStoreMarkTimeout tid => Sys2Proof.Machine.execCodeStoreMarkTimeout tid s
  | .groomMarkWaitRecord tid pa desc => Sys2Proof.Machine.execGroomMarkWaitRecord tid pa desc s
  | .hostCodeWrite pa bytes => Sys2Proof.Machine.execHostCodeWrite pa bytes s
  | .dirGets die line q => Sys2Proof.Machine.execDirGets die line q s
  | .dirGetx die line q => Sys2Proof.Machine.execDirGetx die line q s
  | .dirUpg die line q => Sys2Proof.Machine.execDirUpg die line q s
  | .dirPutx die line q => Sys2Proof.Machine.execDirPutx die line q s
  | .l3Read line x => Sys2Proof.Machine.execL3Read line x s
  | .l3Ownership line x => Sys2Proof.Machine.execL3Ownership line x s
  | .l3WriteBack line x => Sys2Proof.Machine.execL3WriteBack line x s
  | .backInvalidation line => Sys2Proof.Machine.execBackInvalidation line s
  | .sinvWriteThrough die line => Sys2Proof.Machine.execSinvWriteThrough die line s
  | .counterOp pa op tid va => Sys2Proof.Machine.execCounterOp pa op tid va s
  | .counterWaitComplete tid => Sys2Proof.Machine.execCounterWaitComplete tid s
  | .groupChange pa joins tid => Sys2Proof.Machine.execGroupChange pa joins tid s
  | .kernelLoad tenant vf decl => Sys2Proof.Machine.execKernelLoad tenant vf decl s
  | .doorbellLaunch tenant vf record => Sys2Proof.Machine.execDoorbellLaunch tenant vf record s
  | .doorbellRecordTake tenant vf => Sys2Proof.Machine.execDoorbellRecordTake tenant vf s
  | .doorbellDrain tenant vf kh => Sys2Proof.Machine.execDoorbellDrain tenant vf kh s
  | .doorbellSelect tenant vf kh => Sys2Proof.Machine.execDoorbellSelect tenant vf kh s
  | .doorbellResume tenant vf seq => Sys2Proof.Machine.execDoorbellResume tenant vf seq s
  | .featMaskCommit tenant vf mask => Sys2Proof.Machine.execFeatMaskCommit tenant vf mask s
  | .activationPlace tenant kid stage => Sys2Proof.Machine.execActivationPlace tenant kid stage s
  | .gaitPeriodEnd tenant kid => Sys2Proof.Machine.execGaitPeriodEnd tenant kid s
  | .gaitCoreRebind tenant kid core => Sys2Proof.Machine.execGaitCoreRebind tenant kid core s
  | .kernelRetire tenant kid => Sys2Proof.Machine.execKernelRetire tenant kid s
  | .handoverMark stack => Sys2Proof.Machine.execHandoverMark stack s
  | .handoverDrain stack => Sys2Proof.Machine.execHandoverDrain stack s
  | .handoverWriteback stack => Sys2Proof.Machine.execHandoverWriteback stack s
  | .handoverShootdown stack => Sys2Proof.Machine.execHandoverShootdown stack s
  | .handoverPortSwitch stack => Sys2Proof.Machine.execHandoverPortSwitch stack s
  | .handoverFlip stack => Sys2Proof.Machine.execHandoverFlip stack s
  | .handoverComplete stack => Sys2Proof.Machine.execHandoverComplete stack s
  | .stackOffline stack => Sys2Proof.Machine.execStackOffline stack s
  | .stackScrub stack => Sys2Proof.Machine.execStackScrub stack s
  | .stackAssign stack tenant reach => Sys2Proof.Machine.execStackAssign stack tenant reach s
  | .islandHold island => Sys2Proof.Machine.execIslandHold island s
  | .sleepProxyInvalidate core index => Sys2Proof.Machine.execSleepProxyInvalidate core index s
  | .islandWake island => Sys2Proof.Machine.execIslandWake island s
  | .islandOff island => Sys2Proof.Machine.execIslandOff island s
  | .issueGating core clks => Sys2Proof.Machine.execIssueGating core clks s
  | .linkEnable link => Sys2Proof.Machine.execLinkEnable link s
  | .linkTrained link lanes half => Sys2Proof.Machine.execLinkTrained link lanes half s
  | .linkTrainingTimeout link => Sys2Proof.Machine.execLinkTrainingTimeout link s
  | .laneFailure link lanes half => Sys2Proof.Machine.execLaneFailure link lanes half s
  | .linkRetrain link => Sys2Proof.Machine.execLinkRetrain link s
  | .linkDisable link => Sys2Proof.Machine.execLinkDisable link s
  | .linkQuarantine link why => Sys2Proof.Machine.execLinkQuarantine link why s
  | .flitReceive link crcOk => Sys2Proof.Machine.execFlitReceive link crcOk s
  | .replayRateWindow link => Sys2Proof.Machine.execReplayRateWindow link s
  | .tenantDrop router tenant => Sys2Proof.Machine.execTenantDrop router tenant s
  | .peerWordReceive pkg src seq core w => Sys2Proof.Machine.execPeerWordReceive pkg src seq core w s
  | .peerPortReplay core pkg => Sys2Proof.Machine.execPeerPortReplay core pkg s
  | .stopMatch tid => Sys2Proof.Machine.execStopMatch tid s
  | .traceRecord tenant port src pa => Sys2Proof.Machine.execTraceRecord tenant port src pa s
  | .replayArrival tenant port src pa => Sys2Proof.Machine.execReplayArrival tenant port src pa s
  | .profileUpdate core rank transit wait run => Sys2Proof.Machine.execProfileUpdate core rank transit wait run s
  | .monitorSample cluster n x => Sys2Proof.Machine.execMonitorSample cluster n x s
  | .debugToken token => Sys2Proof.Machine.execDebugToken token s
  | .quoteRequest nonce tenant => Sys2Proof.Machine.execQuoteRequest nonce tenant s
  | .packageReset cfg => Sys2Proof.Machine.execPackageReset cfg s
  | .supervisorStart tenant => Sys2Proof.Machine.execSupervisorStart tenant s
  | .partitionReset tenant => Sys2Proof.Machine.execPartitionReset tenant s
  | .hostMemoryAccess target n write => Sys2Proof.Machine.execHostMemoryAccess target n write s
  | .faultQueueHeaderWrite tenant vf addr => Sys2Proof.Machine.execFaultQueueHeaderWrite tenant vf addr s
  | .baseIslandRateChange island half => Sys2Proof.Machine.execBaseIslandRateChange island half s

end Sys2Proof.Machine
end

