-- ==== Sys2Proof/Machine/Place.lean ====
section
/-! DEFINITION. The placement that `State.withFetchWord` makes, standing for boot and load (DESIGN CHOICE, assumption 11): a supervisor task
running on core 0 of an island that runs, its address space with one code page, and the bytes of one instruction. -/

namespace Sys2Proof.Machine

open Sys2Proof

/-- Address of the placed instruction: the first byte of the page of R323's example. -/
def placePc : Nat := 0x1000000
/-- Tables at frames 1 to 4; the leaf maps frame 0x1000 with X and R (R320, R321). -/
def placeTables (m : Memory) : Memory :=
  let m := m.write 0x1000 8 0x0000000000002001
  let m := m.write 0x2000 8 0x0000000000003001
  let m := m.write (0x3000 + 8 * 8) 8 0x0000000000004001
  m.write 0x4000 8 0xA000000001000003
/-- The paddock of the placed task: every die, cluster and stack. -/
def placePaddock : PaddockConfig where
  tenant := 1
  dies := [0, 1, 2, 3]
  rects := [(0, 0x0B170000), (1, 0x0B170000), (2, 0x0B170000), (3, 0x0B170000)]
  dramStacks := 0xFFFF
  reach := 0x8888444422221111
  tvec := 0x2001
  forbid := false
  ctxBase := 0x100000
  ctxCount := 64
  dumpBase := 0x400000
  dumpBytes := 0x50000
  trace := 0
  pool := [1, 2, 3]
  vfs := 1
  aspaces := []
  pblk := 0
  blockPa := 0
  manifest := 0
  signature := 0
  image := []
  entry := 0
  aspace := 0x1001
/-- The placed task. -/
def placeTask : Task :=
  { tid := 0x001000000001, cstate := .running, core := 0, slot := 0, pc := BitVec.ofNat 64 placePc, stat := 1, tvec := 0x2001,
    ctxa := 0x100000, aspace := 0x0000000000001001, seed := 0x9E3779B97F4A7C15 ^^^ 0x001000000001 }
/-- The addresses that the fetch of the placed instruction reads: four table entries and the block at the program counter. -/
def placeReads : List Nat := [0x1000, 0x2000, 0x3040, 0x4000, placePc]
/-- The routers that the fetch passes carry the placed task's tenant as well (R366). -/
def placeRouters (m : Smap (BitVec 4096)) : Smap (BitVec 4096) :=
  (placeReads.flatMap fun pa => [l2Router 0 (sliceOf pa), l3Router 0 (sliceOf pa)]).foldl
    (fun m r => addBit ((2#16).setWidth 4096) r m) m
/-- The state with an instruction of `n` bytes (of value `w`) placed where the next step fetches.
DESIGN CHOICE: assumption 11. -/
def State.place (s : State) (w : Nat) : State :=
  { s with
      routerBits := placeRouters s.routerBits
      mem := (placeTables s.mem).write placePc 12 w
      dramStacks := s.dramStacks.set 0 { state := .owned, owner := 0, reach := 1, tenant := some 1 }
      paddocks := { cfg := placePaddock, started := true, verified := true, nextTid := 2 } :: s.paddocks
      marks := s.marks.filter (·.line != placePc / 64)
      tlb := []
      walkCache := []
      halters := []
      islands := smapSet {} s.islands 0 { state := .run }
      cores := smapSet {} s.cores 0 { s.core 0 with gate := 0 }
      task := placeTask
      others := []
      agenda := []
      grant := 0 }

end Sys2Proof.Machine
end

