-- ==== Sys2Proof/Machine/Touch.lean ====
section
/-! DEFINITION. What the loads and stores of an instruction do to the lines that its core holds (R103, R139, R142, R146, R147, R150): the
fills, the ownership and the stash lines of its accesses. -/

namespace Sys2Proof.Machine

open Sys2Proof

/-- Bytes from an address on. -/
def rangeOf (write : Bool) (n : Nat) (a : Except Stop Word) : List (Word × Nat × Bool) := match a with | .ok x => [(x, n, write)] | .error _ => []

/-- The address ranges that an instruction loads from or stores to through the L1 of its core, as it issues: atomics need the line
exclusive (R103). Tile accesses, counters and mailboxes go to the homes. DEDUCED: assumption 62. -/
def State.touches (s : State) (i : Instr) : List (Word × Nat × Bool) :=
  let t := s.task
  match i with
  | .ld o => rangeOf false (bytesOfW o.m) ((s.srcA o).map (· + o.imm10))
  | .st o => rangeOf true (bytesOfW o.m) ((s.srcA o).map (· + o.imm10))
  | .amo _ o | .cas o => rangeOf true (bytesOfW o.m) (s.srcA o)
  | .famo o => rangeOf true (if o.m = 0 then 4 else 2) (s.srcA o)
  | .vld o => let w := max 8 (fmtBits o.x.tag); rangeOf false (t.active o w * (w / 8)) (s.vecAddr o)
  | .vst o =>
    let w := max 8 (fmtBits (if o.x.tag ≠ .raw then o.x.tag else (t.rdV o.d.toNat).tag))
    rangeOf true (t.active o w * (w / 8)) (s.vecAddr o)
  | .vldb o => let k := t.active o 4 / 32; rangeOf false (16 * k) (s.srcA o) ++ rangeOf false k (s.srcB o)
  | .vstb o => let k := t.active o 4 / 32; rangeOf true (16 * k) (s.srcA o) ++ rangeOf true k (s.srcB o)
  | .sput o => let r := t.stream (o.a.setWidth 2); [(BitVec.ofInt 64 (r.desc.element r.didx), r.desc.size, true)]
  | .sputVector o =>
    let r := t.stream (o.a.setWidth 2)
    (List.range (t.active o (laneBits r.desc.fmt))).map fun k => (BitVec.ofInt 64 (r.desc.element (r.didx + k)), r.desc.size, true)
  | .sdef o | .cpy o | .cpym o => rangeOf false 128 (s.srcA o)
  | .spawn o => rangeOf false 64 (s.srcA o)
  | .mbind o | .sendm o => rangeOf false 64 (s.srcB o)
  | _ => []

/-- The lines of bytes from an address on, by their first virtual addresses. -/
def linesFrom (a : Word) (n : Nat) : List Word :=
  if n = 0 then [] else (List.range ((a.toNat + n - 1) / 64 - a.toNat / 64 + 1)).map fun i => BitVec.ofNat 64 (64 * (a.toNat / 64 + i))

/-- The executing task has accessed the line of an address. -/
def State.touchLine (s : State) (w : Who) (write : Bool) (va : Word) : State :=
  match s.check w { r := !write, w := write } va with
  | .ok (.phys pa e) => s.useLine w.core (lineOf pa) e ((s.core w.core).stashPlace (w.aspace.extractLsb' 52 12) va.toNat) write
  | _ => s

/-- An instruction of the task of `s0`, which stood there before it, has completed: its accesses have filled, upgraded and dirtied lines.
DEDUCED: assumption 62. -/
def State.touch (s s0 : State) (i : Instr) : State :=
  let t := s0.task
  if s.task.tid = t.tid ∧ s.task.pc = t.pc + BitVec.ofNat 64 i.ops.len.bytes ∧ s.task.wait = .none then
    (s0.touches i).foldl (fun s x => (linesFrom x.1 x.2.1).foldl (fun s va => s.touchLine { t.who with granted := none } x.2.2 va) s) s
  else s

end Sys2Proof.Machine
end

