-- ==== Sys2Proof/Machine/Step.lean ====
section
/-! DEFINITION. One step of the package: an instruction of the executing task, an event of the agenda, or, where neither can
happen, the end of a stall (DESIGN CHOICE, assumption 1). -/

namespace Sys2Proof.Machine

open Sys2Proof

/-- Time passes and the free values move on (assumptions 4 and 7). -/
def State.tick (s : State) : State := { s with clk := s.clk + 1 + Config.elapsed s.free, free := s.free + 1 }

/-- After an instruction: what its accesses did to the lines of the core (R139, R142), a send that a peer has still to accept (R261),
and the stops that it left due; a BKPT that ended in a debug stop leaves no further stop due. -/
def afterIssue (s0 : State) (i : Instr) : Host.Outcome State Fault Refusal → Host.Outcome State Fault Refusal
  | .next s => .next (((s.touch s0 i).holdSend s0.task).issued s0.task.tid (match i with | .bkpt _ => true | _ => false))
  | r => r

/-- The executing task issues its next instruction: the fetch, the decoding, the instruction. One without a meaning traps, and has issued
(R60, R287). -/
def issueWord (s : State) : Host.Outcome State Fault Refusal :=
  match s.fetch with
  | .error e => .next (s.finish .instructionFetch (.error e))
  | .ok (s1, ws) =>
    match decode ws with
    | .ok i => afterIssue s1 i (exec i s1)
    | .error c => afterIssue s1 (.illegalInstruction c.code (ws.headD 0)) (exec (.illegalInstruction c.code (ws.headD 0)) s1)

/-- What stands at the boundary before the next instruction of the executing task: a word that a peer has still to accept (R261), a data
error (R240), a stop (R369); else it issues. -/
def issueTask (s : State) : Host.Outcome State Fault Refusal :=
  match s.task.sending, s.task.dataErr, s.stopNow s.task with
  | some p, _, _ => .next (if s.peerWaits s.task then s.stall (.peer p.key p.seq) else s.setTask s.task.sent)
  | none, some (_, pc, pa), _ => .next (s.takeDataError pc pa)
  | none, none, some n => .next (s.debugStop s.task.tid n)
  | none, none, none => issueWord (s.setTask { s.task with peerSent := none })

/-- Can the executing task issue (R21, R287): it runs, its island's clocks run, and its core's slots are not gated? -/
def State.canIssue (s : State) : Bool :=
  s.task.cstate == .running && s.clocked s.task.cluster && decide ((s.core s.task.core).gate ≤ s.clk)
/-- The core of the executing task chooses the next ready slot (R287), whose task executes. -/
def State.rotate (s : State) : State :=
  match s.nextSlot s.task.core with | none => s | some t => s.chosen t

/-- One step. DESIGN CHOICE: assumption 1. -/
def step (s0 : State) : Host.Outcome State Fault Refusal :=
  let s := s0.tick
  match s.grant, s.agenda with
  | n + 1, _ => if s.canIssue then issueTask { s with grant := n } else .next { s with grant := 0 }
  | 0, e :: rest => exec e { s with agenda := rest }
  | 0, [] => if s.canIssue then issueTask s.rotate else .next s.idle

/-- A state whose next step fetches and runs the instruction whose bits are `w`, numbered as the opcode table numbers them;
every bit above `nbits` is 0 (DESIGN CHOICE, assumption 11). -/
def State.withFetchWord (s : State) (nbits w : Nat) : State := s.place (w % 2 ^ nbits)

end Sys2Proof.Machine
end

