-- ==== Sys2Proof/Certificates/Slice0/Obligations.lean ====
section
/-! DEFINITION. The statements for the provers, one proposition each, and the predicates they are written with: what a next
state holds, and that everything else is as before. -/

namespace Sys2Proof.Claims

open Sys2Proof Sys2Proof.Machine

/-! ### Frames -/

/-- Every byte of DRAM and of scratch reads as before. -/
def SameMemory (s t : State) : Prop := (∀ a, t.mem.byte a = s.mem.byte a) ∧ ∀ a, t.scratch.byte a = s.scratch.byte a

/-- Every sparse map of the state is in canonical form: the maps that hold bytes, cores with their lines, clusters with their tiles,
jobs and weight buffers, the directories, the maps of links, routers and islands, code bits, poisoned lines, home ports, and the virtual
functions of each paddock (an invariant: `Obligations.StepKeepsCanonicalMaps`). -/
structure Canonical (s : State) : Prop where
  mem : s.mem.wf
  scratch : s.scratch.wf
  cores : smapWf {} s.cores = true
  lines : ∀ c, smapWf {} (s.core c).lines = true
  clusters : smapWf {} s.clusters = true
  tiles : ∀ c, smapWf {} (s.cluster c).tiles = true
  jobs : ∀ c, smapWf {} (s.cluster c).jobs = true
  wbuf : ∀ c, smapWf {} (s.cluster c).wbuf = true
  dir : smapWf .inv s.dir = true
  l3 : smapWf .I s.l3 = true
  l2dirty : smapWf false s.l2dirty = true
  poison : smapWf false s.poison = true
  islands : smapWf {} s.islands = true
  routes : smapWf 0 s.routes = true
  peerTx : smapWf {} s.peerTx = true
  peerRx : smapWf 0 s.peerRx = true
  routerBits : smapWf 0 s.routerBits = true
  admitted : smapWf 0 s.admitted = true
  codeBits : smapWf false s.codeBits = true
  tracePorts : smapWf {} s.tracePorts = true
  vfs : ∀ p ∈ s.paddocks, smapWf {} p.vfs = true

/-- Words that the source positions a, b and c (and d, where it is a source) take from port q (R53). -/
def portTakes (o : Ops) (dSource : Bool) (q : BitVec 2) : Nat :=
  (if o.x.pa ∧ o.a.setWidth 2 = q then 1 else 0) + (if o.x.pb ∧ o.b.setWidth 2 = q then 1 else 0) +
    (if o.x.pc ∧ o.x.c.setWidth 2 = q then 1 else 0) + if dSource ∧ o.x.pd ∧ o.d.setWidth 2 = q then 1 else 0

/-- The ports keep their bindings, and each queue has lost the words that the instruction took (R53, R262). -/
def PortsTaken (o : Ops) (dSource : Bool) (s t : State) : Prop :=
  ∀ q, (t.task.port q).pb = (s.task.port q).pb ∧ (t.task.port q).queue = (s.task.port q).queue.drop (portTakes o dSource q)

/-- Every core is as before, but that the task's core has a log of the words it consumed (R371) and, after an acquire at scope .k
or wider, a generation greater by one, whose wrap clears the SINV lines (R147). -/
def CoresAfter (acq : Bool) (s t : State) : Prop :=
  (∀ c, { t.core c with consumed := [], sgen := 0, lines := [] } = { s.core c with consumed := [], sgen := 0, lines := [] }) ∧
  (∀ c, c ≠ s.task.core → t.core c = s.core c) ∧
  (t.core s.task.core).sgen = (s.core s.task.core).sgen + (if acq then 1 else 0) ∧
  (t.core s.task.core).lines =
    (if acq ∧ (s.core s.task.core).sgen + 1 = 0 then (s.core s.task.core).lines.filter (fun e => !e.2.sinv)
     else (s.core s.task.core).lines)

/-- Does an instruction's acquire raise the generation of its core (R147)? -/
def acquires (o : Ops) : Bool := o.x.ord.isAcq && o.x.sc != .c

/-- Nothing outside the executing task and the cores' logs has changed. -/
def OnlyTask (s t : State) : Prop := t = { s with task := t.task, cores := t.cores } ∧ SameMemory s t

/-- The program counter has advanced by the instruction's length. -/
def Advanced (o : Ops) (s t : State) : Prop := t.task.pc = s.task.pc + BitVec.ofNat 64 o.len.bytes

/-- The instruction delivers `v` to position d and ends. A g register takes it (g0 keeps reading 0), the flags `f` are merged into
FSR, the port words of a, b and c are consumed, the program counter advances, and nothing else of the task, of memory or of the
package changes. Where d names a port, one word is sent from the state `b` instead. -/
def Delivers (i : Instr) (o : Ops) (s b : State) (v : Word) (f : BitVec 6) (acq : Bool) : Prop :=
  (o.x.pd = false → ∃ t, exec i s = .next t ∧
    t.task.rd o.d = (if o.d = 0 then 0 else v) ∧ (∀ n, n ≠ o.d → t.task.rd n = s.task.rd n) ∧
    t.task.fsr = s.task.fsr ||| f.setWidth 64 ∧ Advanced o s t ∧ PortsTaken o false s t ∧ CoresAfter acq s t ∧
    t.task = { s.task with g := t.task.g, fsr := t.task.fsr, pc := t.task.pc, ports := t.task.ports, wait := .none } ∧
    OnlyTask s t) ∧
  (o.x.pd = true → ∀ u, b.send (o.d.setWidth 2) v = .ok u → exec i s = .next ((u.take o).advance o))

/-! ### Integers of a type (R22, R23, R76) -/

/-- The low W bits of a word as an integer of the type. -/
def num (T : Fmt) (x : Word) : Int :=
  if Fmt.signed T then Int.bmod x.toNat (2 ^ Fmt.width T) else x.toNat % 2 ^ Fmt.width T
/-- The 64-bit image of an exact integer wrapped to the type: its low W bits, extended as the type says. -/
def image (T : Fmt) (r : Int) : Word :=
  BitVec.ofInt 64 (if Fmt.signed T then Int.bmod r (2 ^ Fmt.width T) else r % 2 ^ Fmt.width T)
/-- Least and greatest integer of the type. -/
def least (T : Fmt) : Int := if Fmt.signed T then -2 ^ (Fmt.width T - 1) else 0
def greatest (T : Fmt) : Int := if Fmt.signed T then 2 ^ (Fmt.width T - 1) - 1 else 2 ^ Fmt.width T - 1
/-- Wrapped, or with .sat clamped. -/
def fitted (T : Fmt) (sat : Bool) (r : Int) : Word := image T (if sat then min (greatest T) (max (least T) r) else r)
/-- SAT where .sat changes the result. -/
def satFlag (T : Fmt) (sat : Bool) (r : Int) : BitVec 6 := if sat ∧ (r < least T ∨ greatest T < r) then 32 else 0
/-- The low W bits of a word. -/
def low (T : Fmt) (x : Word) : BitVec (Fmt.width T) := BitVec.ofNat (Fmt.width T) x.toNat

/-- A result that raises no flag goes to d. -/
def Gives (i : Instr) (o : Ops) (s : State) (v : Word) : Prop := Delivers i o s (s.flag 0) v 0 false

/-- The primary opcode of the instruction's first word (R47). -/
def opcodeOf (i : Instr) : BitVec 7 := (Instr.word i).extractLsb' 2 7
/-- The function code of the instruction's first word, in the forms that have one (R48). -/
def functionOf (i : Instr) : BitVec 5 := (Instr.word i).extractLsb' 27 5

end Sys2Proof.Claims

open Sys2Proof Sys2Proof.Machine Sys2Proof.Claims

/-! ### Reset, encoding, the step -/

/-- R11, R358, R378: after reset no task and no paddock exists, the boot has not begun, stack s is owned by die s / 4 of its edge
with reach of its owner only, links 0 to 4 train and the Ouvmer Link ports are down, and every byte reads 0. The zero bytes are
assumption 3; GCLK 0 and the reset values that the spec does not give are assumption 2. -/
def Obligations.ResetState : Prop :=
  State.reset.task.cstate = .free ∧ State.reset.others = [] ∧ State.reset.paddocks = [] ∧ State.reset.boot.step = 0 ∧
  (∀ k, k < 16 → (State.reset.stack k).state = .owned ∧ (State.reset.stack k).owner.toNat = k / 4 ∧
    (State.reset.stack k).reach = 1#4 <<< (k / 4)) ∧
  (∀ n, (h : n < 17) → (State.reset.links[n]).state = if n ≤ 4 then .training else .down) ∧
  ∀ a, State.reset.mem.byte a = 0 ∧ State.reset.scratch.byte a = 0

/-- R47 to R60: decoding the words that encode a well-formed instruction gives it back, whatever words follow; events have no
words and are left out. -/
def Obligations.DecodeOfEncode : Prop :=
  ∀ (i : Instr) (rest : List (BitVec 32)), WellFormed i → i.row.isSome → decode (encode i ++ rest) = .ok i

/-- R48, R49, R51 and the encoding tables: words written out bit by bit decode to the instructions they stand for. -/
def Obligations.WrittenWordsDecode : Prop :=
  decode [0b00000#5 ++ 0b000#3 ++ 0b00010#5 ++ 0b00001#5 ++ 0b00011#5 ++ 0x02#7 ++ 0b00#2] = .ok (.add { d := 3, a := 1, b := 2 }) ∧
  decode [0b1111111111111#13 ++ 0b00001#5 ++ 0b00011#5 ++ 0x0B#7 ++ 0b00#2] = .ok (.addi { d := 3, a := 1, imm := 0x1FFF }) ∧
  decode [0b0000000000010#13 ++ 0b00001#5 ++ 0b00010#5 ++ 0x10#7 ++ 0b00#2] = .ok (.beq { a := 1, b := 2, imm := 2 }) ∧
  decode [0b0000001000#10 ++ 0b011#3 ++ 0b00001#5 ++ 0b00100#5 ++ 0x20#7 ++ 0b00#2] =
    .ok (.ld { d := 4, a := 1, m := 3, imm := 8 })

/-- When the bytes at the program counter of a task that issues decode to an instruction, the step is `exec` of it at the state
that the fetch leaves, with time moved on; after it the lines of the core are as its accesses leave them (R139, assumption 62), the peers
of the core learn that the task has issued and a stop entry may become due (R56, R369); bytes that decode to nothing take the
illegal-instruction trap. The task that issues is the one whose slot the core of the executing task chooses (R287). An event of the agenda
is `exec` of it, and a grant lets the executing task itself issue first (DESIGN CHOICE, assumption 1). At the boundary before it stand a
word that a peer package has still to accept, which completes its instruction once it is accepted (R261, assumption 45), and a data error
or a debug stop that is due (R240, R369). -/
def Obligations.StepRunsDecodedInstruction : Prop :=
  let issues (b : State) (o : Host.Outcome State Fault Refusal) : Prop :=
    (b.task.sending = none → b.task.dataErr = none → b.stopNow b.task = none →
      ∀ (s1 : State) (ws : List (BitVec 32)) (i : Instr), (b.setTask { b.task with peerSent := none }).fetch = .ok (s1, ws) → decode ws = .ok i →
        o = afterIssue s1 i (exec i s1)) ∧
    (b.task.sending = none → b.task.dataErr = none → b.stopNow b.task = none →
      ∀ (s1 : State) (ws : List (BitVec 32)) (c : Illegal), (b.setTask { b.task with peerSent := none }).fetch = .ok (s1, ws) → decode ws = .error c →
        o = afterIssue s1 (.illegalInstruction c.code (ws.headD 0)) (exec (.illegalInstruction c.code (ws.headD 0)) s1)) ∧
    (∀ p, b.task.sending = some p → b.peerWaits b.task = true → o = .next (b.stall (.peer p.key p.seq))) ∧
    (∀ p, b.task.sending = some p → b.peerWaits b.task = false →
      ∃ t, o = .next (b.setTask t) ∧ t.pc = p.next ∧ t.peerSent = none ∧ t.cstate = b.task.cstate ∧ t.g = b.task.g) ∧
    (∀ va pc pa, b.task.sending = none → b.task.dataErr = some (va, pc, pa) → o = .next (b.takeDataError pc pa)) ∧
    (∀ n, b.task.sending = none → b.task.dataErr = none → b.stopNow b.task = some n → o = .next (b.debugStop b.task.tid n))
  (∀ (s : State), s.agenda = [] → s.grant = 0 → s.tick.canIssue = true → issues s.tick.rotate (step s)) ∧
  (∀ (s : State), s.agenda = [] → s.grant = 0 → s.tick.canIssue = true → s.tick.nextSlot s.task.core = some s.task → s.task.cstate = .running →
    s.tick.rotate = s.tick.setCore s.task.core { s.core s.task.core with last := s.task.slot }) ∧
  (∀ (s : State) (e : Instr) (rest : List Instr), s.grant = 0 → s.agenda = e :: rest →
    step s = exec e { s.tick with agenda := rest }) ∧
  (∀ (s : State) (n : Nat), s.grant = n + 1 → s.tick.canIssue = true → issues { s.tick with grant := n } (step s))

/-- Every sparse map of the state is in canonical form at reset. -/
def Obligations.ResetCanonicalMaps : Prop := Canonical State.reset

/-- Every step keeps the canonical form of every sparse map, memory among them, from every state that has it. -/
def Obligations.StepKeepsCanonicalMaps : Prop :=
  ∀ s t : State, Canonical s → step s = .next t → Canonical t

/-! ### Scalar instructions -/

/-- R23, R39, R59, R76, R77, R80 to R86: the result of every scalar instruction of two sources, in the type that the tag names
(I64 for 0x00), extended to 64 bits; .sat clamps and sets SAT; a zero divisor gives all ones and the dividend; shift amounts are
not masked. The register form is written whole; the port form sends the same value. DIV, REM, MIN and MAX have the codes of R82 and
R83. -/
def Obligations.TwoSourceResults : Prop :=
  ∀ (o : Ops) (s : State) (x y : Word), Canonical s → s.srcA o = .ok x → s.srcBL o = .ok y →
    let T := o.ity
    let a := num T x
    let b := num T y
    let W := Fmt.width T
    let codes (i : Instr) (op : BitVec 7) (fn : BitVec 5) : Prop := opcodeOf i = op ∧ functionOf i = fn
    codes (.div o) 0x05 0 ∧ codes (.rem o) 0x05 1 ∧ codes (.min o) 0x08 0 ∧ codes (.max o) 0x08 1 ∧
    let arith (i : Instr) (r : Int) : Prop :=
      Delivers i o s (s.flag (satFlag T o.sat r)) (fitted T o.sat r) (satFlag T o.sat r) false
    arith (.add o) (a + b) ∧ arith (.sub o) (a - b) ∧ arith (.mul o) (a * b) ∧
    Gives (.mulh o) o s (image T (a * b / 2 ^ W)) ∧
    Gives (.div o) o s (image T (if b = 0 then -1 else a.tdiv b)) ∧
    Gives (.rem o) o s (image T (if b = 0 then a else a.tmod b)) ∧
    Gives (.and o) o s (image T (x &&& y).toNat) ∧ Gives (.or o) o s (image T (x ||| y).toNat) ∧
    Gives (.xor o) o s (image T (x ^^^ y).toNat) ∧ Gives (.andn o) o s (image T (x &&& ~~~y).toNat) ∧
    Gives (.orn o) o s (image T (x ||| ~~~y).toNat) ∧ Gives (.xnor o) o s (image T (~~~(x ^^^ y)).toNat) ∧
    Gives (.shl o) o s (image T (if y.toNat < W then (low T x <<< y.toNat).toNat else 0)) ∧
    Gives (.shr o) o s (image T (if y.toNat < W then (low T x >>> y.toNat).toNat else 0)) ∧
    Gives (.sar o) o s (image T ((low T x).toInt / 2 ^ min y.toNat W)) ∧
    Gives (.rol o) o s (image T ((low T x).rotateLeft y.toNat).toNat) ∧
    Gives (.ror o) o s (image T ((low T x).rotateRight y.toNat).toNat) ∧
    Gives (.min o) o s (image T (min a b)) ∧ Gives (.max o) o s (image T (max a b)) ∧
    Gives (.cmp .eq o) o s (if a = b then 1 else 0) ∧ Gives (.cmp .ne o) o s (if a ≠ b then 1 else 0) ∧
    Gives (.cmp .lt o) o s (if a < b then 1 else 0) ∧ Gives (.cmp .ge o) o s (if a ≥ b then 1 else 0) ∧
    Gives (.cmp .gt o) o s (if a > b then 1 else 0) ∧ Gives (.cmp .le o) o s (if a ≤ b then 1 else 0)

/-- R80, R84, R85, R88, R90: the instructions with an immediate or a literal in place of b, the literal loads, and ADDPC. -/
def Obligations.ImmediateResults : Prop :=
  ∀ (o : Ops) (s : State), Canonical s →
    let T := o.ity
    let W := Fmt.width T
    let y := o.imm8
    (∀ x, s.srcA o = .ok x →
      (let r := num T x + num T o.imm13
       Delivers (.addi o) o s (s.flag (satFlag T o.sat r)) (fitted T o.sat r) (satFlag T o.sat r) false) ∧
      Gives (.andi o) o s (image T (x &&& y).toNat) ∧ Gives (.ori o) o s (image T (x ||| y).toNat) ∧
      Gives (.xori o) o s (image T (x ^^^ y).toNat) ∧
      Gives (.shli o) o s (image T (if y.toNat < W then (low T x <<< y.toNat).toNat else 0)) ∧
      Gives (.shri o) o s (image T (if y.toNat < W then (low T x >>> y.toNat).toNat else 0)) ∧
      Gives (.sari o) o s (image T ((low T x).toInt / 2 ^ min y.toNat W)) ∧
      Gives (.roli o) o s (image T ((low T x).rotateLeft y.toNat).toNat) ∧
      Gives (.rori o) o s (image T ((low T x).rotateRight y.toNat).toNat) ∧
      Delivers (.lih o) o s s (o.lit ++ x.extractLsb' 0 32 : BitVec 64) 0 false) ∧
    (o.x.pa = false → o.x.pb = false → o.x.pc = false →
      Delivers (.li o) o s s o.imm13 0 false ∧ Delivers (.addpc o) o s s (s.task.pc + o.imm18) 0 false) ∧
    ∀ x y z, s.srcA o = .ok x → s.srcB o = .ok y → s.srcC o = .ok z → Delivers (.sel o) o s s (if x ≠ 0 then y else z) 0 false

/-- R89: a branch compares a and b (signed for LT and GE, unsigned for LO and HS) and continues at the program counter plus four
times the offset where the condition holds, else at the next instruction; it changes nothing else. The six have opcodes 0x10 to
0x15. -/
def Sys2Proof.Claims.BranchTargets : Prop :=
  ∀ (o : Ops) (s : State) (x y : Word), Canonical s → s.srcA o = .ok x → s.srcB o = .ok y →
    let goes (i : Instr) (c : Prop) : Prop := ∃ t, exec i s = .next t ∧
      (c → t.task.pc = s.task.pc + o.imm13 * 4) ∧ (¬ c → Advanced o s t) ∧ PortsTaken o false s t ∧ CoresAfter false s t ∧
      t.task = { s.task with pc := t.task.pc, ports := t.task.ports, wait := .none } ∧ OnlyTask s t
    goes (.beq o) (x = y) ∧ goes (.bne o) (x ≠ y) ∧ goes (.blt o) (x.toInt < y.toInt) ∧ goes (.bge o) (y.toInt ≤ x.toInt) ∧
      goes (.blo o) (x.toNat < y.toNat) ∧ goes (.bhs o) (y.toNat ≤ x.toNat) ∧
      opcodeOf (.beq o) = 0x10 ∧ opcodeOf (.bne o) = 0x11 ∧ opcodeOf (.blt o) = 0x12 ∧ opcodeOf (.bge o) = 0x13 ∧
      opcodeOf (.blo o) = 0x14 ∧ opcodeOf (.bhs o) = 0x15

/-- R90: JAL and JALR leave the address of the next instruction in d and continue at their target; a JALR target that is not a
multiple of 4 takes the alignment fault (kind 4) with the target as its address and writes nothing. -/
def Sys2Proof.Claims.JumpAndLink : Prop :=
  ∀ (o : Ops) (s : State), Canonical s →
    let links (i : Instr) (target : Word) : Prop :=
      (o.x.pd = false → ∃ t, exec i s = .next t ∧ t.task.pc = target ∧
        t.task.rd o.d = (if o.d = 0 then 0 else s.task.pc + BitVec.ofNat 64 o.len.bytes) ∧
        (∀ n, n ≠ o.d → t.task.rd n = s.task.rd n) ∧ PortsTaken o false s t ∧ CoresAfter false s t ∧
        t.task = { s.task with g := t.task.g, pc := t.task.pc, ports := t.task.ports, wait := .none } ∧ OnlyTask s t) ∧
      (o.x.pd = true → ∀ u, s.send (o.d.setWidth 2) (s.task.pc + BitVec.ofNat 64 o.len.bytes) = .ok u →
        ∃ t, exec i s = .next t ∧ t.task.pc = target ∧ t.task.g = (u.take o).task.g)
    (o.x.pa = false → o.x.pb = false → o.x.pc = false → links (.jal o) (s.task.pc + o.imm18 * 4)) ∧
    ∀ x, s.srcA o = .ok x →
      ((x + o.imm13).extractLsb' 0 2 = 0 → links (.jalr o) (x + o.imm13)) ∧
      ((x + o.imm13).extractLsb' 0 2 ≠ 0 → exec (.jalr o) s = .next (s.trap { kind := 4, info0 := x + o.imm13 }))

/-- R89, R90: where branches and jumps go, and what they leave as it was. -/
def Obligations.ControlFlow : Prop :=
  Sys2Proof.Claims.BranchTargets ∧ Sys2Proof.Claims.JumpAndLink

/-- R59, R105, R106, R147, R204, R329: NOP only advances; a FENCE that is not release-only raises the generation of the task's
core at scope .k or wider, and one that is not acquire-only orders the task's stores for its copy unit at scope .k or wider (R162); PUBC removes every mark that names the task and no other; SFREE makes the stream register free. -/
def Obligations.NopFencePubcSfree : Prop :=
  ∀ (o : Ops) (s : State), Canonical s →
    (∃ t, exec (.nop o) s = .next t ∧ Advanced o s t ∧ t.task = { s.task with pc := t.task.pc, wait := .none } ∧
      t = { s with task := t.task } ∧ SameMemory s t) ∧
    (∃ t, exec (.fence o) s = .next t ∧ Advanced o s t ∧ t.task = { s.task with pc := t.task.pc, wait := .none } ∧
      CoresAfter (o.x.ord != .rel && o.x.sc != .c) s t ∧
      t = { s with task := t.task, cores := t.cores,
                   recent := if o.x.ord = .acq ∨ o.x.sc = .c then s.recent else s.recent.filter (·.1 != s.task.tid) } ∧ SameMemory s t) ∧
    (∃ t, exec (.pubc o) s = .next t ∧ Advanced o s t ∧ t.task = { s.task with pc := t.task.pc, wait := .none } ∧
      (∀ m, m ∈ t.marks ↔ m ∈ s.marks ∧ m.tid ≠ some s.task.tid) ∧ t = { s with task := t.task, marks := t.marks } ∧
      SameMemory s t) ∧
    (∃ t, exec (.sfree o) s = .next t ∧ Advanced o s t ∧ t.task.stream (o.a.setWidth 2) = {} ∧
      (∀ n, n ≠ o.a.setWidth 2 → t.task.stream n = s.task.stream n) ∧
      t.task = { s.task with pc := t.task.pc, wait := .none, streams := t.task.streams } ∧
      t = { s with task := t.task } ∧ SameMemory s t)

namespace Sys2Proof.Claims

/-- The port that position d names, if it names one, is bound: the instruction does not trap at issue (R261). -/
def DestBound (o : Ops) (s : State) : Prop := o.x.pd = true → (s.task.port (o.d.setWidth 2)).pb.getLsbD 63 = true

/-! ### Stores -/

/-- The `n` bytes at a location hold the low bytes of `v`, little-endian (R1); every other byte reads as before. -/
def Stored (s t : State) (l : Loc) (n v : Nat) : Prop :=
  match l with
  | .scratch k =>
    (∀ j, j < n → t.scratch.byte (k + j) = BitVec.ofNat 8 (v / 256 ^ j)) ∧
    (∀ a, a < k ∨ k + n ≤ a → t.scratch.byte a = s.scratch.byte a) ∧ ∀ a, t.mem.byte a = s.mem.byte a
  | .phys pa _ =>
    (∀ j, j < n → t.mem.byte (pa + j) = BitVec.ofNat 8 (v / 256 ^ j)) ∧
    (∀ a, a < pa ∨ pa + n ≤ a → t.mem.byte a = s.mem.byte a) ∧ ∀ a, t.scratch.byte a = s.scratch.byte a

/-- A store to the location finds its lines free of other tasks' halters, and can mark them where they hold code (R168, R328). -/
def StoreFree (s : State) (l : Loc) (n : Nat) : Prop :=
  s.notHaltered l = .ok () ∧
    (match l with | .scratch _ => True | .phys pa _ => (s.markRange s.task.tid s.task.die pa n).isSome)

/-- Does a store go to a SINV page, whose lines are written through to the die's L2 (R146)? -/
def writesThrough (l : Loc) : Prop := match l with | .scratch _ => False | .phys _ e => pteMode e = 1 ∧ pteCtr e = false

/-- Cores after a store: as after any instruction; a store to a SINV page takes the line from other dies, whose cores drop it. -/
def StoreCores (acq : Bool) (s t : State) (l : Loc) : Prop :=
  (¬ writesThrough l → CoresAfter acq s t) ∧
  ∀ c, { t.core c with consumed := [], sgen := 0, lines := [], sleepLog := [], sleepCount := 0 } =
    { s.core c with consumed := [], sgen := 0, lines := [], sleepLog := [], sleepCount := 0 }

/-- Beside memory, the marks, the monitors that a write ends, the cores' logs, the executing task, what copy units still see of the old
bytes (R166), and for a SINV page the states of the line (R146), nothing has changed; no mark is made where the location's frame holds
no code. -/
def StoreFrame (s t : State) (l : Loc) : Prop :=
  t = { s with mem := t.mem, scratch := t.scratch, task := t.task, others := t.others, marks := t.marks, cores := t.cores,
               recent := t.recent, clusters := t.clusters, poison := t.poison, dir := t.dir, l3 := t.l3, l2dirty := t.l2dirty } ∧
  t.others.map (fun u => { u with wait := .none }) = s.others.map (fun u => { u with wait := .none }) ∧
  (match l with | .scratch _ => t.marks = s.marks | .phys pa _ => s.isCode pa = false → t.marks = s.marks) ∧
  (∀ c, { t.cluster c with copies := [] } = { s.cluster c with copies := [] } ∧
    (t.cluster c).copies.map (fun x : Copy => { x with old := [] }) = (s.cluster c).copies.map (fun x : Copy => { x with old := [] })) ∧
  ((∀ x ∈ (s.cluster s.task.cluster).copies, x.tid ≠ s.task.tid) → t.clusters = s.clusters) ∧
  (∀ x ∈ t.poison, x ∈ s.poison) ∧ (¬ writesThrough l → t.dir = s.dir ∧ t.l3 = s.l3 ∧ t.l2dirty = s.l2dirty) ∧
  (∀ y, y.1 ≠ s.task.tid → (y ∈ t.recent ↔ y ∈ s.recent))

/-- An atomic access: the new value is stored, the old one is delivered to d in the type `T`, and the registers, flags and memory
beside are as before. `s1` is the state once the home port has traced the store (R373, R374): `s` itself where the paddock traces
nothing. Where d names a port (R53), the old value is sent from the state that the store leaves. -/
def Swaps (i : Instr) (o : Ops) (s s1 : State) (va : Word) (l : Loc) (T : Fmt) (n new : Nat) (f : BitVec 6) : Prop :=
  (o.x.pd = false → ∃ t, exec i s = .next t ∧ Stored s1 t l n new ∧
    t.task.rd o.d = (if o.d = 0 then 0 else image T (s.readLoc l n)) ∧ (∀ m, m ≠ o.d → t.task.rd m = s.task.rd m) ∧
    t.task.fsr = s.task.fsr ||| f.setWidth 64 ∧ Advanced o s t ∧ PortsTaken o false s t ∧ StoreCores (acquires o) s t l ∧
    t.task = { s.task with g := t.task.g, fsr := t.task.fsr, pc := t.task.pc, ports := t.task.ports, wait := .none,
                           streams := t.task.streams } ∧
    StoreFrame s1 t l) ∧
  (o.x.pd = true → ∀ b u, s1.storeLoc va l n new = .ok b →
    ((b.flag f).acquire o).send (o.d.setWidth 2) (image T (s.readLoc l n)) = .ok u → exec i s = .next ((u.take o).advance o))

/-- The task's paddock traces no stores (R373). -/
def Untraced (s : State) : Prop := ∀ p, s.paddock s.task.tenant = some p → p.traceMode = 0

end Sys2Proof.Claims

/-! ### Memory instructions -/

/-- R92, R93, R98, R100, R240: LD of an aligned address that the page lets the task read delivers the bytes at its location,
little-endian, extended as the width code says. Where their line has an uncorrectable error it completes too, with no defined value, and
the task takes the data error at its next boundary. -/
def Sys2Proof.Claims.LoadDelivers : Prop :=
  ∀ (o : Ops) (s : State) (x : Word) (l : Loc), Canonical s → s.srcA o = .ok x →
    let n := bytesOfW o.m
    (x + o.imm10).toNat % n = 0 →
    s.access { r := true, ctr := if n = 8 then .allow else .deny } (x + o.imm10) = .ok l → s.notHaltered l = .ok () →
    (s.locPoisoned l n = false → Delivers (.ld o) o s (s.acquire o) (image (fmtOfW o.m) (s.readLoc l n)) 0 (acquires o)) ∧
    (s.locPoisoned l n = true → o.x.pd = false → ∃ t, exec (.ld o) s = .next t ∧ t.task.dataErr = some (x + o.imm10, s.task.pc, l.pa) ∧
      (∀ m, m ≠ o.d → t.task.rd m = s.task.rd m) ∧ Advanced o s t ∧ PortsTaken o false s t ∧ OnlyTask s t)

/-- R92, R94, R97, R146, R328: ST of an aligned address that the page lets the task write stores the low bytes of d at the location that
the check of the address gives, and only there; to a SINV page the writer's die then owns the line. -/
def Sys2Proof.Claims.StoreWrites : Prop :=
  ∀ (o : Ops) (s s1 : State) (x y : Word) (l : Loc), Canonical s → s.srcA o = .ok x → s.srcD o = .ok y →
    let n := bytesOfW o.m
    (x + o.imm10).toNat % n = 0 → s.access { w := true } (x + o.imm10) = .ok l → StoreFree s l n → s.traced l = .ok s1 →
    ∃ t, exec (.st o) s = .next t ∧ Stored s1 t l n (y.toNat % 2 ^ (8 * n)) ∧ Advanced o s t ∧ PortsTaken o true s t ∧
      StoreCores false s t l ∧ StoreFrame s1 t l ∧ (∀ pa e, l = .phys pa e → writesThrough l → t.l3State (pa / 64) s.task.die = .M) ∧
      t.task = { s.task with pc := t.task.pc, ports := t.task.ports, wait := .none, streams := t.task.streams }

/-- R373, R374, R383: what a home port does with a store before it places it: nothing in scratch, in a paddock that does not trace, and on
a DIR line that the core holds exclusive. In record mode it writes the 16-byte entry into the next slot of its ring and publishes it, and
holds the store while the ring is full; in replay mode it places a store that matches the next entry, which it releases, and holds any
other. The home port's ring and slots are found as log entry 58 says. -/
def Sys2Proof.Claims.TracedStores : Prop :=
  ∀ (s : State) (l : Loc) (pa : Nat) (e : Word) (p : Paddock), Canonical s → s.paddock s.task.tenant = some p →
    (∀ k, s.traced (.scratch k) = .ok s) ∧ (p.traceMode = 0 → s.traced l = .ok s) ∧
    (l = .phys pa e → pteMode e = 0 → (s.line s.task.core (pa / 64)).excl = true → s.traced l = .ok s) ∧
    (l = .phys pa e → (pteMode e ≠ 0 ∨ (s.line s.task.core (pa / 64)).excl = false) → ∀ r, s.traceRing p (s.portOf s.task.core pa e) = some r →
      let port := s.portOf s.task.core pa e
      let src := BitVec.ofNat 14 s.task.core
      let entry : BitVec 128 := (BitVec.ofNat 64 pa ++ 0#18 ++ src ++ (s.tracePort p.cfg.tenant port).seq : BitVec 128)
      (p.traceMode = 1 → (r.nslot : Int) ≤ (r.wp : Int) - r.rp → s.traced l = .error (.wait .retry)) ∧
      (∀ q, p.traceMode = 1 → (r.wp : Int) - r.rp < r.nslot → s.traceSlot p port r r.wp = some q → (r.pa + 8 ≤ q ∨ q + 16 ≤ r.pa) →
        r.wp + 1 < 2 ^ 64 →
        ∃ s1, s.traced l = .ok s1 ∧ s1.mem.read q 16 = entry.toNat ∧ s1.mem.read r.pa 8 = r.wp + 1 ∧
          (∀ a, (a < q ∨ q + 16 ≤ a) → (a < r.pa ∨ r.pa + 8 ≤ a) → s1.mem.byte a = s.mem.byte a)) ∧
      (p.traceMode = 2 → s.traceFirst p port r (src, BitVec.ofNat 64 pa) = true → r.rp + 1 < 2 ^ 64 →
        ∃ s1, s.traced l = .ok s1 ∧ s1.mem.read (r.pa + 8) 8 = r.rp + 1 ∧ ∀ a, (a < r.pa + 8 ∨ r.pa + 16 ≤ a) → s1.mem.byte a = s.mem.byte a) ∧
      (p.traceMode = 2 → s.traceFirst p port r (src, BitVec.ofNat 64 pa) = false → ∃ c, s.traced l = .error (.wait (.traced port pa c))))

/-- R92 to R94, R373: LD delivers the bytes at its location, ST stores there and nowhere else, once its home port has traced it. -/
def Obligations.LoadsAndStores : Prop :=
  Sys2Proof.Claims.LoadDelivers ∧ Sys2Proof.Claims.StoreWrites ∧ Sys2Proof.Claims.TracedStores

/-- R101, R102, R104: AMO, CAS and FAMO read the old value, store the new one at the same location in the same step, and deliver the
old value to d. A CAS whose comparison fails is a load: it stores nothing, and its release part orders nothing. -/
def Obligations.AtomicsSwap : Prop :=
  ∀ (o : Ops) (s s1 : State) (va y : Word) (l : Loc), Canonical s → s.srcA o = .ok va → s.srcB o = .ok y → s.traced l = .ok s1 →
    (let T := fmtOfW o.m
     let n := bytesOfW o.m
     let old := BitVec.ofNat 64 (s.readLoc l n)
     let lowY := y.toNat % 2 ^ (8 * n)
     va.toNat % n = 0 → s.access { r := true, w := true } va = .ok l → StoreFree s l n → s.locPoisoned l n = false →
      Swaps (.amo .swap o) o s s1 va l T n lowY 0 ∧
      Swaps (.amo .add o) o s s1 va l T n (old + y).toNat 0 ∧
      Swaps (.amo .and o) o s s1 va l T n (old &&& y).toNat 0 ∧
      Swaps (.amo .or o) o s s1 va l T n (old ||| BitVec.ofNat 64 lowY).toNat 0 ∧
      Swaps (.amo .xor o) o s s1 va l T n (old ^^^ BitVec.ofNat 64 lowY).toNat 0 ∧
      Swaps (.amo .min o) o s s1 va l T n (if num T y < num T old then lowY else old.toNat) 0 ∧
      Swaps (.amo .max o) o s s1 va l T n (if num T old < num T y then lowY else old.toNat) 0 ∧
      ∀ z, s.srcC o = .ok z →
        (old.toNat = lowY → Swaps (.cas o) o s s1 va l T n z.toNat 0) ∧
        (old.toNat ≠ lowY → s1 = s → Delivers (.cas o) o s (s.acquire o) (image T old.toNat) 0 (acquires o))) ∧
    (let F := ffmt (if o.m = 0 then .fp32 else .bf16)
     let n := if o.m = 0 then 4 else 2
     va.toNat % n = 0 → s.access { r := true, w := true } va = .ok l → StoreFree s l n → s.locPoisoned l n = false →
      let r := F.result (addNum (F.decode (s.readLoc l n)) (F.decode (y.toNat % 2 ^ (8 * n))))
      Swaps (.famo o) o s s1 va l (if o.m = 0 then .n32 else .n16) n r.1 r.2)

/-- R91, R92, R239, R332: an LD, ST, AMO, CAS or FAMO that is not aligned, or whose translation, permission or stack refuses it, writes
nothing to memory; the task takes the trap of its kind at the instruction, with the address in EINFO0. Where the page is paged out the
park set of the task stops instead. -/
def Obligations.FaultingAccessTraps : Prop :=
  ∀ (o : Ops) (s : State) (x : Word), s.srcA o = .ok x →
    let n := bytesOfW o.m
    let refused (i : Instr) (n : Nat) (va : Word) (want : Want) (code : BitVec 8) : Prop :=
      let traps (t : Trap) : Prop := exec i s = .next (s.trap t) ∧ SameMemory s (s.trap t)
      (va.toNat % n ≠ 0 → traps { kind := 4, info0 := va }) ∧
      (va.toNat % n = 0 →
        (∀ d, s.check s.task.who want va = .error (.translation d) → traps { kind := 5, detail := d, info0 := va }) ∧
        (s.check s.task.who want va = .error .permission → traps { kind := 6, info0 := va }) ∧
        (s.check s.task.who want va = .error .stack → traps { kind := 7, info0 := va }) ∧
        ∀ level, s.check s.task.who want va = .error (.paging level) → exec i s = .next (s.parkGroup va level code))
    refused (.ld o) n (x + o.imm10) { r := true, ctr := if n = 8 then .allow else .deny } 1 ∧
    (∀ y, s.srcD o = .ok y → refused (.st o) n (x + o.imm10) { w := true } 2) ∧
    ∀ y, s.srcB o = .ok y →
      (∀ k, refused (.amo k o) n x { r := true, w := true } 2) ∧
      refused (.famo o) (if o.m = 0 then 4 else 2) x { r := true, w := true } 2 ∧
      ∀ z, s.srcC o = .ok z → refused (.cas o) n x { r := true, w := true } 2

/-- R92, R98, R138, R326, R342, R388: how an address is checked. Bits above 47 are a translation fault of detail 3; the scratch window ends
at the scratch bytes of the core (detail 5) and is never reached by fetches, tile locks and home accesses; elsewhere a missing leaf is
detail 1, a malformed one detail 2, and a leaf without the permission a permission fault; the die must reach the stack (R342), and a frame
in transit (R98) makes the access wait, and so does one with no way to its die, because no arc of the ring between the dies carries
traffic (R360); the routers that the way passes are assumption 46. -/
def Sys2Proof.Claims.AddressCheck : Prop :=
  ∀ (s : State) (w : Who) (n : Want) (va : Word),
    (va.extractLsb' 48 16 ≠ 0 → s.check w n va = .error (.translation 3)) ∧
    (va.extractLsb' 48 16 = 0 → 0xFFFFFFFC0000 ≤ va.toNat →
      let off := va.toNat - 0xFFFFFFFC0000
      ((s.core w.core).scratchBytes ≤ off → s.check w n va = .error (.translation 5)) ∧
      (off < (s.core w.core).scratchBytes → (n.x ∨ n.tlk ∨ n.home) → s.check w n va = .error .permission) ∧
      (off < (s.core w.core).scratchBytes → n.x = false → n.tlk = false → n.home = false → n.ctr ≠ .require →
        s.check w n va = .ok (.scratch (262144 * w.core + off)))) ∧
    (va.toNat < 0xFFFFFFFC0000 →
      (∀ level, s.lookup w va = .absent level false → s.check w n va = .error (.translation 1)) ∧
      (s.lookup w va = .malformed → s.check w n va = .error (.translation 2)) ∧
      (∀ e level bits, s.lookup w va = .leaf e level bits →
        ((n.r ∧ pteR e = false) ∨ (n.w ∧ pteW e = false) ∨ (n.x ∧ pteX e = false) ∨ (pteSup e ∧ w.sup = false) →
          s.check w n va = .error .permission) ∧
        (permitted w.sup n e → pteRep e = false →
          let pa := leafPa e level va.toNat
          let k := stackOf pa
          (s.reach w (w.core / 2304) k = false → s.check w n va = .error .stack) ∧
          ((s.stack k).reachable (w.core / 2304) = true →
            ((s.stack k).inTransit = false → w.granted = none → s.way w.tenant (w.core / 2304) pa = true →
              s.check w n va = .ok (.phys pa e)) ∧
            ((s.stack k).inTransit = false → w.granted = none → s.way w.tenant (w.core / 2304) pa = false → s.heldHere w n va pa e = false →
              s.check w n va = .error .busy ∧ Bad.stop va 1 .busy = .wait .retry) ∧
            (s.arc (s.dies w.tenant) (w.core / 2304) (s.stack k).owner.toNat = none → s.way w.tenant (w.core / 2304) pa = false) ∧
            ((s.stack k).inTransit = true → s.heldHere w n va pa e = false →
              ∃ held, s.check w n va = .error (.transit (BitVec.ofNat 4 k) held))))))

/-- R239, R241: a trap of a task with a valid vector outside a handler saves STAT, the program counter and the cause, makes it a
supervisor with TRP set and goes to the vector; registers, memory and every other task are unchanged. A fatal one saves them too, and
the context goes to dumped, where it stands. -/
def Sys2Proof.Claims.TrapEntrySaves : Prop :=
  ∀ (s : State) (t : Trap), s.task.cstate = .running →
    (s.task.tvec.getLsbD 0 = true → s.task.stat.getLsbD 1 = false →
      ∃ u, exec (.trapEntry t) s = .next u ∧ u.task.estat = s.task.stat ∧ u.task.epc = s.task.pc &&& ~~~(3 : Word) ∧
        u.task.ecause.extractLsb' 0 6 = t.kind ∧ u.task.ecause.extractLsb' 8 8 = t.detail ∧ u.task.ecause.getLsbD 7 = t.imp ∧
        u.task.einfo0 = t.info0 ∧ u.task.einfo1 = t.info1 ∧ u.task.einfo2 = t.info2 ∧
        u.task.stat = s.task.stat ||| 3 ∧ u.task.pc = s.task.tvec &&& ~~~(3 : Word) ∧
        u.task = { s.task with estat := u.task.estat, epc := u.task.epc, ecause := u.task.ecause, einfo0 := u.task.einfo0,
                               einfo1 := u.task.einfo1, einfo2 := u.task.einfo2, stat := u.task.stat, pc := u.task.pc,
                               cstate := .running, wait := .none, stored := none } ∧
        u = { s with task := u.task } ∧ SameMemory s u) ∧
    ((s.task.tvec.getLsbD 0 = false ∨ s.task.stat.getLsbD 1 = true) →
      ∃ u, exec (.trapEntry t) s = .next u ∧ u.task.cstate = .dumped ∧ u.task.pc = s.task.pc ∧ u.task.g = s.task.g ∧ u.task.stat = s.task.stat ∧
        u.task.estat = s.task.stat ∧ u.task.epc = s.task.pc &&& ~~~(3 : Word) ∧ u.task.ecause.extractLsb' 0 6 = t.kind ∧
        u.task.einfo0 = t.info0 ∧ u.task.einfo1 = t.info1 ∧ u.task.einfo2 = t.info2 ∧
        (∃ d, u.task.dump = some d ∧ d.ecause = u.task.ecause ∧ d.epc = u.task.epc) ∧ SameMemory s u)

/-- R60, R91, R238: an undefined encoding takes the illegal-instruction trap (kind 1) with its cause and the first word. -/
def Sys2Proof.Claims.IllegalInstructionTraps : Prop :=
  ∀ (s : State) (cause : BitVec 8) (word : BitVec 32), s.task.tvec.getLsbD 0 = true → s.task.stat.getLsbD 1 = false →
    ∃ u, exec (.illegalInstruction cause word) s = .next u ∧ u.task.ecause = (0#48 ++ cause ++ 1#8 : BitVec 64) ∧
      u.task.einfo0 = word.setWidth 64 ∧ u.task.epc = s.task.pc &&& ~~~(3 : Word) ∧ u.task.pc = s.task.tvec &&& ~~~(3 : Word) ∧
      u.task.g = s.task.g ∧ SameMemory s u

/-- R247, R252, R253: TRAP and BKPT (with no debugger attached) enter the handler with the next instruction's address and the
immediate; ERET of a supervisor restores the program counter and STAT; ERET of another task takes the privilege trap. -/
def Sys2Proof.Claims.TrapAndReturn : Prop :=
  ∀ (o : Ops) (s : State),
    (s.task.tvec.getLsbD 0 = true → s.task.stat.getLsbD 1 = false →
      (∃ u, exec (.trap o) s = .next u ∧ u.task.ecause = 12 ∧ u.task.einfo0 = (o.imm.setWidth 13).signExtend 64 ∧
        u.task.epc = (s.task.pc + BitVec.ofNat 64 o.len.bytes) &&& ~~~(3 : Word) ∧ u.task.estat = s.task.stat ∧
        u.task.stat = s.task.stat ||| 3 ∧ u.task.pc = s.task.tvec &&& ~~~(3 : Word) ∧ u.task.g = s.task.g ∧ SameMemory s u) ∧
      (s.breakEntry = none →
        ∃ u, exec (.bkpt o) s = .next u ∧ u.task.ecause = 13 ∧ u.task.einfo0 = (o.imm.setWidth 13).signExtend 64 ∧
        u.task.epc = (s.task.pc + BitVec.ofNat 64 o.len.bytes) &&& ~~~(3 : Word) ∧ u.task.stat = s.task.stat ||| 3 ∧
        u.task.pc = s.task.tvec &&& ~~~(3 : Word) ∧ u.task.g = s.task.g ∧ SameMemory s u)) ∧
    (s.task.sup = true → ∃ u, exec (.eret o) s = .next u ∧ u.task.pc = s.task.epc ∧ u.task.stat = s.task.estat ∧
      u.task = { s.task with pc := u.task.pc, stat := u.task.stat } ∧ u = { s with task := u.task } ∧ SameMemory s u) ∧
    (s.task.sup = false → exec (.eret o) s = .next (s.trap { kind := 9, info0 := (Instr.word (.eret o)).setWidth 64 }))

/-- R238, R239, R241, R252, R253: what taking an exception saves and where it goes, and the instructions that take one or return. -/
def Obligations.Exceptions : Prop :=
  Sys2Proof.Claims.TrapEntrySaves ∧ Sys2Proof.Claims.IllegalInstructionTraps ∧ Sys2Proof.Claims.TrapAndReturn

/-! ### Ports -/

/-- R53, R261, R262, R360, R361, R367: a word sent through a bound port of a rank that the sender's core's table places on a core of this
package and of its paddock goes along an arc of the ring that carries traffic, waits where there is none, is dropped and reported at the
first router that does not admit its tenant, and else arrives at the port of the task that holds the rank, behind the words that wait
there; an unbound port is an illegal operand, and a rank without an entry is resource exhaustion 3. -/
def Sys2Proof.Claims.PortSendArrives : Prop :=
  ∀ (s : State) (n : BitVec 2) (v : Word),
    ((s.task.port n).pb.getLsbD 63 = false → s.send n v = .error Stop.illegalOperand) ∧
    ((s.task.port n).pb.getLsbD 63 = true →
      let rank := (s.task.port n).pb.extractLsb' 32 20
      let q := (s.task.port n).pb.extractLsb' 56 2
      ((∀ e ∈ (s.core s.task.core).ranks, rankOf e ≠ rank) → s.send n v = .error (Stop.resource 3)) ∧
      ∀ e p, (s.core s.task.core).ranks.find? (fun e => rankOf e == rank) = some e → rankPkg e = 0xFFF →
        s.paddock s.task.tenant = some p → p.hasCore (rankCore e) = true → (∀ r ∈ (s.core (rankCore e)).redirect, r.1 ≠ s.task.tenant ++ rank) →
        let way := s.arc (p.cfg.dies.map (·.toNat)) s.task.die (rankCore e / 2304)
        (way = none → s.send n v = .error (.wait .retry)) ∧
        ∀ arc, way = some arc →
          (∀ r, s.stopsAt s.task.tenant (wordRouters s.task.core (rankCore e) arc) = some r →
            s.send n v = .ok { s with drops := s.drops ++ [(r, s.task.tenant)] }) ∧
          (s.stopsAt s.task.tenant (wordRouters s.task.core (rankCore e) arc) = none → (s.core (rankCore e)).inbound = [] →
            (∀ u ∈ s.tasks, u.movingFrom (rankCore e) = false) →
            ∀ t, s.tasks.find? (·.holds (rankCore e) s.task.tenant rank) = some t → (t.port q).queue.length < 4 →
              ∃ u w, s.send n v = .ok u ∧ w.word.value = v ∧ w.word.rank = rank ∧ w.word.src = s.task.srcRank ∧
                u = s.modTask t.tid (fun t => t.setPort q { (t.port q) with queue := (t.port q).queue ++ [w] })))

/-- R20, R261, R362, R363, R367: a word for a rank of a peer package goes along an arc to the base die of the port that its core uses towards
the peer, waits while there is none or unacknowledged words have still to be replayed on a new port, is dropped and reported at the first
router that does not admit its tenant, and else takes the core's next number; the sender then waits for the peer to accept it. What the
peers do with the words, and the routers to a port, are assumptions 45 and 46. -/
def Sys2Proof.Claims.PeerSends : Prop :=
  ∀ (s : State) (n : BitVec 2) (v e : Word), smapWf {} s.peerTx = true → (s.task.port n).pb.getLsbD 63 = true →
    let core := s.task.core
    let rank := (s.task.port n).pb.extractLsb' 32 20
    (s.core core).ranks.find? (fun e => rankOf e == rank) = some e → rankPkg e ≠ 0xFFF →
    let pkg := (rankPkg e).toNat
    let key := core * 4096 + pkg
    let tx := smapGet {} s.peerTx key
    (s.outPort core pkg = none → s.send n v = .error (.wait .retry)) ∧
    ∀ port, s.outPort core pkg = some port →
      let way := s.arc (s.dies s.task.tenant) s.task.die (port / 3)
      ((way = none ∨ (tx.unacked ≠ [] ∧ tx.port ≠ some port)) → s.send n v = .error (.wait .retry)) ∧
      ∀ arc, way = some arc → (tx.unacked = [] ∨ tx.port = some port) →
        (∀ r, s.stopsAt s.task.tenant (portRouters core port arc) = some r →
          s.send n v = .ok { s with drops := s.drops ++ [(r, s.task.tenant)] }) ∧
        (s.stopsAt s.task.tenant (portRouters core port arc) = none →
          ∃ u w, s.send n v = .ok u ∧ w.value = v ∧ w.rank = rank ∧ w.src = s.task.srcRank ∧ w.tenant = s.task.tenant ∧
            smapGet {} u.peerTx key = { next := tx.next + 1, unacked := tx.unacked ++ [(tx.next, w)], port := some port } ∧
            (∀ k, k ≠ key → smapGet {} u.peerTx k = smapGet {} s.peerTx k) ∧
            u.task = { s.task with peerSent := some { pc := s.task.pc, next := s.task.pc, key := key, seq := tx.next } } ∧ SameMemory s u)

/-- R261, R262, R371: PORT_WORD_SEND of a running task performs the send; PORT_WORD_ARRIVAL puts a word into the port queue of the
task that holds its rank, and one for a rank that no task holds is discarded with a record of type 3; SLOT_QUEUE_REFILL moves the
words of the inbound buffer on, in order, while their queues have room. -/
def Sys2Proof.Claims.PortEvents : Prop :=
  ∀ (s : State) (n : BitVec 2) (v : Word) (core : Nat) (w : PortWord), Canonical s →
    (∀ u, s.task.cstate = .running → s.send n v = .ok u → exec (.portWordSend n v) s = .next u) ∧
    ((∀ u ∈ s.tasks, u.movingFrom core = false) →
      (∀ t, s.tasks.find? (·.holds core w.tenant w.rank) = some t → (t.port w.port).queue.length < 4 → (s.core core).inbound = [] →
        exec (.portWordArrival core w) s = .next (s.modTask t.tid fun t => t.setPort w.port
          { (t.port w.port) with queue := (t.port w.port).queue ++ [{ word := w, arrival := s.stamp }] })) ∧
      ((∀ t ∈ s.tasks, t.holds core w.tenant w.rank = false) → s.postRoom w.tenant = true →
        exec (.portWordArrival core w) s =
          .next (s.postOwn w.tenant 3 0 0 0 0 (w.rank.setWidth 64) (w.src.setWidth 64)))) ∧
    (∀ x t, (s.core core).inbound = [x] → (∀ u ∈ s.tasks, u.movingFrom core = false) →
      s.tasks.find? (·.holds core x.word.tenant x.word.rank) = some t →
      (t.port x.word.port).queue.length < 4 →
      ∃ u, exec (.slotQueueRefill core) s = .next u ∧ (u.core core).inbound = [] ∧
        u.task = (s.modTask t.tid fun t => t.setPort x.word.port { (t.port x.word.port) with queue := (t.port x.word.port).queue ++ [x] }).task ∧
        u.others = (s.modTask t.tid fun t => t.setPort x.word.port { (t.port x.word.port) with queue := (t.port x.word.port).queue ++ [x] }).others)

/-- R53, R259 to R262: a word sent through a port, and the words that arrive. -/
def Obligations.Ports : Prop :=
  Sys2Proof.Claims.PortSendArrives ∧ Sys2Proof.Claims.PeerSends ∧ Sys2Proof.Claims.PortEvents

namespace Sys2Proof.Claims

/-! ### Vector groups (R110, R111) -/

/-- Element k of a register, of width w. -/
def elem (r : VReg) (w k : Nat) : Nat := elemAt r.bits.toNat w k

/-- Register j of the group at `base` after a write of elements: active elements take `r`, the others keep their bits or are 0
under .z; a register with an active element, or under .z, takes the tag, and scale field 0 where the tag is no block format. -/
def GroupWritten (t t' : Task) (base : BitVec 5) (n w act : Nat) (z : Bool) (f : Fmt) (r : Nat → Nat) : Prop :=
  (∀ j, j < n → (j * perReg w < act ∨ z = true) →
    (∀ k, k < perReg w → elem (t'.rdV (base.toNat + j)) w k =
      if j * perReg w + k < act then r (j * perReg w + k) % 2 ^ w else if z then 0 else elem (t.rdV (base.toNat + j)) w k) ∧
    (t'.rdV (base.toNat + j)).tag = f ∧ (f.isBlock = false → (t'.rdV (base.toNat + j)).scale = 0)) ∧
  ∀ m, (m < base.toNat ∨ base.toNat + n ≤ m ∨ (z = false ∧ base.toNat + act / perReg w + (if act % perReg w = 0 then 0 else 1) ≤ m)) →
    t'.rdV m = t.rdV m

/-- What every vector instruction that writes no memory leaves as it was, and its common end: flags merged, port words consumed, the
program counter advanced. Only vector registers (and predicates and SEED, where `more` lets them) differ. -/
def VectorEnd (o : Ops) (s t : State) (fl : BitVec 6) (acq : Bool) : Prop :=
  t.task.fsr = s.task.fsr ||| fl.setWidth 64 ∧ Advanced o s t ∧ PortsTaken o false s t ∧ CoresAfter acq s t ∧
  t.task = { s.task with v := t.task.v, p := t.task.p, seed := t.task.seed, fsr := t.task.fsr, pc := t.task.pc,
                         ports := t.task.ports, wait := .none } ∧
  OnlyTask s t

/-- A lane instruction: the active elements of the group d take the results `r`, whose flags are merged. -/
def Lanes (i : Instr) (o : Ops) (s : State) (w : Nat) (f : Fmt) (r : Nat → Nat × BitVec 6) : Prop :=
  let act := s.task.active o w
  ∃ t, exec i s = .next t ∧ GroupWritten s.task t.task o.d (s.task.span o) w act (zOf o) f (fun k => (r k).1) ∧
    VectorEnd o s t ((List.range act).foldl (fun a k => a ||| (r k).2) 0) false ∧ t.task.p = s.task.p ∧
    ((match i with | .vcvt _ => False | _ => True) → t.task.seed = s.task.seed)

/-- Element k of the group at a register. -/
def groupElem (t : Task) (base : BitVec 5) (w k : Nat) : Nat := elem (t.rdV (base.toNat + k / perReg w)) w (k % perReg w)

/-- The groups d, a and, where asked, b and c lie inside the file. -/
def Fits (s : State) (o : Ops) (b c : Bool) : Prop :=
  o.d.toNat + s.task.span o ≤ 32 ∧ o.a.toNat + s.task.span o ≤ 32 ∧ (b = true → o.b.toNat + s.task.span o ≤ 32) ∧
    (c = true → o.x.c.toNat + s.task.span o ≤ 32)

/-- A predicate is legal (R109): SPAN 1 to 6, EW at most 4, COUNT within the group. -/
def Governed (s : State) (o : Ops) : Prop := (s.task.rdP o.m).legal = true

end Sys2Proof.Claims

/-! ### Vector instructions -/

/-- R112, R113: the format of a lane instruction of two sources is its tag field, or for 0x00 the tag of source a. A format that the entry
does not accept takes the format fault (kind 3) at the first register of a, with the expected tag 0x00 for a tag field of 0x00; else the
first register of group a, then of group b, that has another tag takes it: the fault reports the position, the tag expected, the tag found
and the place in the group; .ri checks nothing. -/
def Sys2Proof.Claims.TagChecks : Prop :=
  ∀ (t : Task) (o : Ops) (accept : BitVec 32),
    let f := if o.x.tag ≠ .raw then o.x.tag else (t.rdV o.a.toNat).tag
    let n := t.span o
    let accepted := inSet accept f.code.toNat = true ∧ (f ≠ .raw ∨ accept = anyTag)
    let tagA (j : Nat) : Fmt := (t.rdV (o.a.toNat + j)).tag
    let tagB (j : Nat) : Fmt := (t.rdV (o.b.toNat + j)).tag
    (o.x.ri = true → t.laneFormat o accept true = .ok f) ∧
    (o.x.ri = false → o.a.toNat + n ≤ 32 → o.b.toNat + n ≤ 32 →
      (accepted → (∀ j, j < n → tagA j = f ∧ tagB j = f) → t.laneFormat o accept true = .ok f) ∧
      (accepted → ∀ j, j < n → (∀ i, i < j → tagA i = f) → tagA j ≠ f → t.laneFormat o accept true = .error (Stop.format 0 f (tagA j) j)) ∧
      (accepted → (∀ j, j < n → tagA j = f) → ∀ j, j < n → (∀ i, i < j → tagB i = f) → tagB j ≠ f →
        t.laneFormat o accept true = .error (Stop.format 1 f (tagB j) j)) ∧
      (¬ accepted → 1 ≤ n →
        t.laneFormat o accept true = .error (Stop.format 0 (if o.x.tag = .raw then .raw else f) (tagA 0) 0)))

/-- R92, R112: the checks of an address, and the checks of the tags of a lane instruction's operands. -/
def Obligations.OperandChecks : Prop :=
  Sys2Proof.Claims.AddressCheck ∧ Sys2Proof.Claims.TagChecks

/-- R110 to R114, R121 to R123, R133: the elementwise instructions. Each active element of d is the operation on the elements of a
(and b) in the format of R112: in an integer format the exact result wrapped, or with .sat clamped; in a floating format the result
rounded to it; bitwise operations act on the bits. Inactive elements keep their bits or are 0 under .z. -/
def Obligations.LaneResults : Prop :=
  ∀ (o : Ops) (s : State) (f : Fmt), Governed s o → o.x.pa = false → o.x.pb = false → o.x.pc = false →
    let w := laneBits f
    let x (k : Nat) := groupElem s.task o.a w k
    let y (k : Nat) := groupElem s.task o.b w k
    let D := (ffmt f).decode
    let fp := Fmt.isFp f
    let sat := satOf o
    (Fits s o true false → s.task.laneFormat o intFloats true = .ok f → (sat && f.isFloat) = false →
      let arith (i : Instr) (fi : Int → Int → Int) (ff : FNum → FNum → FNum × Bool) : Prop :=
        Lanes i o s w f fun k => if fp then (ffmt f).result (ff (D (x k)) (D (y k))) else narrow f sat (fi (valOf f (x k)) (valOf f (y k)))
      arith (.vadd o) (· + ·) addNum ∧ arith (.vsub o) (· - ·) (fun a b => addNum a b.neg) ∧ arith (.vmul o) (· * ·) mulNum) ∧
    (Fits s o true false → s.task.laneFormat o intFloats true = .ok f →
      Lanes (.vmin o) o s w f (fun k => if fp then (ffmt f).minmax false (x k) (y k)
        else (if valOf f (x k) < valOf f (y k) then x k else y k, 0)) ∧
      Lanes (.vmax o) o s w f (fun k => if fp then (ffmt f).minmax true (x k) (y k)
        else (if valOf f (x k) < valOf f (y k) then y k else x k, 0))) ∧
    (Fits s o true false → s.task.laneFormat o intTags true = .ok f →
      Lanes (.vmulh o) o s w f fun k => narrow f false (valOf f (x k) * valOf f (y k) / 2 ^ Fmt.width f)) ∧
    (Fits s o true false → s.task.laneFormat o floats true = .ok f →
      Lanes (.vdiv o) o s w f fun k =>
        (((ffmt f).ofNum .rne 0 (divNum (D (x k)) (D (y k))).1).1,
         ((ffmt f).ofNum .rne 0 (divNum (D (x k)) (D (y k))).1).2 ||| (divNum (D (x k)) (D (y k))).2)) ∧
    (Fits s o true false → s.task.laneFormat o anyTag true = .ok f →
      Lanes (.vand o) o s w f (fun k => (x k &&& y k, 0)) ∧ Lanes (.vor o) o s w f (fun k => (x k ||| y k, 0)) ∧
      Lanes (.vxor o) o s w f (fun k => (x k ^^^ y k, 0)) ∧ Lanes (.vandn o) o s w f (fun k => (x k &&& (2 ^ w - 1 - y k), 0))) ∧
    (Fits s o false false → s.task.laneFormat o intFloats false = .ok f → (sat && f.isFloat) = false →
      Lanes (.vabs o) o s w f (fun k => if fp then (x k % 2 ^ (w - 1), 0) else narrow f sat (valOf f (x k)).natAbs) ∧
      Lanes (.vneg o) o s w f (fun k => if fp then (x k ^^^ 2 ^ (w - 1), 0) else narrow f sat (-valOf f (x k)))) ∧
    (Fits s o false false → s.task.laneFormat o floats false = .ok f →
      ∀ g, Lanes (.vsf g o) o s w f fun k => (((ffmt f).ofNum .rne 0 (sfNum g (D (x k))).1).1,
        ((ffmt f).ofNum .rne 0 (sfNum g (D (x k))).1).2 ||| (sfNum g (D (x k))).2))

/-- R124 to R127, R132: fused multiply-add, shifts by the elements of b or (.sa) by a scalar, compare, select and permute. -/
def Obligations.LaneResultsOfThree : Prop :=
  ∀ (o : Ops) (s : State) (f : Fmt), Governed s o → o.x.pa = false → o.x.pb = false → o.x.pc = false →
    let n := s.task.span o
    let w := laneBits f
    let x (k : Nat) := groupElem s.task o.a w k
    let y (k : Nat) := groupElem s.task o.b w k
    let z (k : Nat) := groupElem s.task o.x.c w k
    let D := (ffmt f).decode
    let total := n * perReg w
    (Fits s o true true → s.task.laneFormat o intFloats true = .ok f → (o.x.ri = true ∨ s.task.tagsAre 2 o.x.c n f true f = .ok ()) →
      (satOf o && f.isFloat) = false →
      let fused (i : Instr) (a b : Int) (np nc : Bool) : Prop := Lanes i o s w f fun k =>
        if Fmt.isFp f then (ffmt f).result (fmaNum (if np then (D (x k)).neg else D (x k)) (D (y k)) (if nc then (D (z k)).neg else D (z k)))
        else narrow f (satOf o) (a * (valOf f (x k) * valOf f (y k)) + b * valOf f (z k))
      fused (.vfma o) 1 1 false false ∧ fused (.vfms o) 1 (-1) false true ∧ fused (.vfnma o) (-1) 1 true false ∧
        fused (.vfnms o) (-1) (-1) true true) ∧
    (Fits s o (!satOf o) false → s.task.laneFormat o intTags false = .ok f →
      (satOf o = true ∨ o.x.ri = true ∨ s.task.tagsIn 1 o.b n (sameWidthInt f) = .ok ()) →
      let amount (k : Nat) : Nat := if satOf o then (s.task.rd o.b).toNat else y k
      Lanes (.vshl o) o s w f (fun k => (if amount k < w then x k * 2 ^ amount k % 2 ^ w else 0, 0)) ∧
      Lanes (.vshr o) o s w f (fun k => (if amount k < w then x k / 2 ^ amount k else 0, 0)) ∧
      Lanes (.vsar o) o s w f (fun k => (((BitVec.ofNat w (x k)).sshiftRight (amount k)).toNat, 0)) ∧
      Lanes (.vrol o) o s w f (fun k => (((BitVec.ofNat w (x k)).rotateLeft (amount k)).toNat, 0)) ∧
      Lanes (.vror o) o s w f (fun k => (((BitVec.ofNat w (x k)).rotateRight (amount k)).toNat, 0))) ∧
    (Fits s o true false → s.task.laneFormat o intFloats true = .ok f →
      ∀ c, (c = .un → f.isInt = false) →
        Lanes (.vcmp c o) o s w (nOf w) fun k => (if (vcmpHolds c f (x k) (y k)).1 then 2 ^ w - 1 else 0, (vcmpHolds c f (x k) (y k)).2)) ∧
    (Fits s o true true → s.task.laneFormat o anyTag true = .ok f →
      (o.x.ri = true ∨ s.task.tagsIn 2 o.x.c n (sameWidthInt f) = .ok ()) →
      Lanes (.vsel o) o s w f fun k => (if z k ≠ 0 then x k else y k, 0)) ∧
    (Fits s o true false → s.task.laneFormat o anyTag false = .ok f → (o.x.ri = true ∨ s.task.tagsAre 1 o.b n (nOf w) true (nOf w) = .ok ()) →
      Lanes (.vpermTbl o) o s w f fun k => (if y k < total then x (y k) else 0, 0)) ∧
    (Fits s o false false → s.task.laneFormat o anyTag false = .ok f →
      Lanes (.vpermBcast o) o s w f (fun _ => (if (s.task.rd o.b).toNat < total then x (s.task.rd o.b).toNat else 0, 0)) ∧
      Lanes (.vpermRev o) o s w f (fun k => (x (total - 1 - k), 0)))

/-- R43, R128, R129: VCVT from registers of one tag. To a format that is no block each active element of d is the conversion of the element
of a at its place in the part that the qualifier names. To a block format each register of d with an active element, or under .z, takes the
block of its 32 source elements, with +0 for the inactive ones: codes, tag and scale; the others stay. Under .rs the draws advance SEED. -/
def Obligations.ConversionResults : Prop :=
  ∀ (o : Ops) (s : State), Governed s o → o.x.pa = false → o.x.pb = false → o.x.pc = false →
    let n := s.task.span o
    let src := (s.task.rdV o.a.toNat).tag
    let wd := fmtBits o.x.tag
    let ws := fmtBits src
    let e := n * perReg wd
    let part := (o.x.mod.extractLsb' 2 3).toNat
    let k := if 128 ≤ e * ws then (e * ws + 127) / 128 else 1
    src ≠ .raw → o.d.toNat + n ≤ 32 → o.a.toNat + k ≤ 32 →
    (∀ j, j < k → (s.task.rdV (o.a.toNat + j)).tag = src) →
    (if 128 ≤ e * ws then part = 0 else (part + 1) * (e * ws) ≤ 128) →
    let first := if 128 ≤ e * ws then 0 else part * e
    let draw (i : Nat) : BitVec 16 := if o.x.rm = .rs then (draws s.task.seed e).1.getD i 0 else 0
    let scale (i : Nat) : BitVec 8 := (s.task.rdV (o.a.toNat + (first + i) / perReg ws)).scale
    let x (i : Nat) : Nat := groupElem s.task o.a ws (first + i)
    (o.x.tag.isBlock = false →
      Lanes (.vcvt o) o s wd o.x.tag fun i => convert src o.x.tag (satOf o) o.x.rm (draw i) (scale i) (x i)) ∧
    (o.x.tag.isBlock = true →
      let act := s.task.active o 4
      let taken (j : Nat) : Bool := decide (32 * j < act) || zOf o
      let block (j : Nat) := toBlock o.x.tag o.x.c.toNat o.x.rm ((List.range 32).map fun c => draw (32 * j + c))
        ((List.range 32).map fun c => if 32 * j + c < act then numOf src (scale (32 * j + c)) (x (32 * j + c)) else .fin false 0 0)
      ∃ t, exec (.vcvt o) s = .next t ∧
        (∀ j, j < n → taken j = true → (t.task.rdV (o.d.toNat + j)).tag = o.x.tag ∧ (t.task.rdV (o.d.toNat + j)).scale = (block j).1 ∧
          ∀ c, c < 32 → elem (t.task.rdV (o.d.toNat + j)) 4 c = (block j).2.1.getD c 0 % 16) ∧
        (∀ m, (m < o.d.toNat ∨ o.d.toNat + n ≤ m ∨ taken (m - o.d.toNat) = false) → t.task.rdV m = s.task.rdV m) ∧
        t.task.p = s.task.p ∧
        VectorEnd o s t (((List.range n).filter taken).foldl (fun a j => a ||| (block j).2.2) 0) false) ∧
    ∀ t, exec (.vcvt o) s = .next t → t.task.seed = if o.x.rm = .rs then (draws s.task.seed e).2 else s.task.seed

/-- R45, R130, R131: VDOT adds to each active 32-bit accumulator lane the products of its operands' elements, integers exactly and
wrapped or clamped, floats as one group of R45; VRED leaves the reduction of the active elements in element 0 of the register d, the
rest 0. -/
def Sys2Proof.Claims.DotAndReduce : Prop :=
  ∀ (o : Ops) (s : State), Governed s o → o.x.pa = false → o.x.pb = false → o.x.pc = false →
    let n := s.task.span o
    (∀ g fl, Fits s o true false →
      (∀ j, j < n → dotClass (s.task.rdV (o.a.toNat + j)).tag = some (g, fl) ∧ dotClass (s.task.rdV (o.b.toNat + j)).tag = some (g, fl) ∧
        (s.task.rdV (o.d.toNat + j)).tag = if fl then .fp32 else .i32) →
      (o.x.tag = .raw ∨ o.x.tag = if fl then .fp32 else .i32) →
      (fl = true → satOf o = false ∧ o.x.mod.getLsbD 2 = false ∧ o.x.mod.getLsbD 3 = false) →
      let w := 32 / g
      let ea (l k : Nat) := elem (s.task.rdV (o.a.toNat + l / 4)) w (g * (l % 4) + k)
      let eb (l k : Nat) := elem (s.task.rdV (o.b.toNat + l / 4)) w (g * (l % 4) + k)
      let acc (l : Nat) := elem (s.task.rdV (o.d.toNat + l / 4)) 32 (l % 4)
      Lanes (.vdot o) o s 32 (if fl then .fp32 else .i32) fun l =>
        if fl then groupStep (acc l) ((List.range g).map fun k =>
          ((ffmt (s.task.rdV (o.a.toNat + l / 4)).tag).decode (ea l k), (ffmt (s.task.rdV (o.b.toNat + l / 4)).tag).decode (eb l k)))
        else narrow .i32 (satOf o) (((List.range g).map fun k =>
          signedBits (o.x.mod.getLsbD 2) w (ea l k) * signedBits (o.x.mod.getLsbD 3) w (eb l k)).foldl (· + ·) (valOf .i32 (acc l)))) ∧
    (∀ (k : VRedOp) (f : Fmt), o.a.toNat + n ≤ 32 →
      s.task.laneFormat o (if k = .add ∨ k = .min ∨ k = .max then intFloats else anyTag) false = .ok f → (satOf o && f.isFloat) = false →
      let w := laneBits f
      let r := reduce k f (satOf o) ((List.range (s.task.active o w)).map (groupElem s.task o.a w))
      ∃ t, exec (.vred k o) s = .next t ∧ (t.task.rdV o.d.toNat).bits.toNat = r.1 % 2 ^ w ∧ (t.task.rdV o.d.toNat).tag = f ∧
        (∀ m, m ≠ o.d.toNat → t.task.rdV m = s.task.rdV m) ∧ t.task.p = s.task.p ∧ t.task.seed = s.task.seed ∧ VectorEnd o s t r.2 false)

/-- R134: VTOPK takes the k candidates that come first by descending key, the lower index first among equals, and writes their values
to the group d, their indices as N16 to the group c, and their number to the result predicate, whose SPAN (where it fits the field) is
the registers of the index group; a k outside 1 to 64 is an illegal operand. -/
def Sys2Proof.Claims.TopKSelects : Prop :=
  ∀ (o : Ops) (s : State) (f : Fmt), Governed s o → o.x.pa = false → o.x.pb = false → o.x.pc = false →
    s.task.laneFormat o intFloats false = .ok f → o.a.toNat + s.task.span o ≤ 32 →
    let w := laneBits f
    let k := (s.task.rd o.b).toNat
    let nv := (k * w + 127) / 128
    let ni := (k + 7) / 8
    let key (i : Nat) : FNum := let v := numOf f 0 (groupElem s.task o.a w i); if o.x.mod.getLsbD 0 then absNum v else v
    let cands := ((List.range (s.task.active o w)).map fun i => (i, key i)).filter fun c => !(o.x.mod.getLsbD 1 && c.2.isZero)
    let best := (topOrder cands).map (·.1)
    ((k = 0 ∨ 64 < k) → exec (.vtopk o) s = .next (s.trap { kind := 2, info0 := (Instr.word (.vtopk o)).setWidth 64 })) ∧
    (1 ≤ k → k ≤ 64 → o.d.toNat + nv ≤ 32 → o.x.c.toNat + ni ≤ 32 → (o.x.c.toNat + ni ≤ o.d.toNat ∨ o.d.toNat + nv ≤ o.x.c.toNat) →
      ∃ t, exec (.vtopk o) s = .next t ∧
        (∀ j, j < k → j < best.length →
          groupElem t.task o.d w j = groupElem s.task o.a w (best.getD j 0) ∧ groupElem t.task o.x.c 16 j = best.getD j 0) ∧
        (∀ j, best.length ≤ j → j < k → groupElem t.task o.x.c 16 j = 0xFFFF) ∧
        (o.x.mod.extractLsb' 2 3 ≠ 0 → (t.task.rdP (o.x.mod.extractLsb' 2 3)).count = BitVec.ofNat 8 (min k best.length) ∧
          (t.task.rdP (o.x.mod.extractLsb' 2 3)).ew = 2 ∧ (ni ≤ 7 → (t.task.rdP (o.x.mod.extractLsb' 2 3)).span = BitVec.ofNat 3 ni)) ∧
        (∀ q, q ≠ o.x.mod.extractLsb' 2 3 → t.task.rdP q = s.task.rdP q) ∧ t.task.seed = s.task.seed ∧ VectorEnd o s t 0 false)

/-- R130, R131, R134: VDOT, VRED and VTOPK. -/
def Obligations.Reductions : Prop :=
  Sys2Proof.Claims.DotAndReduce ∧ Sys2Proof.Claims.TopKSelects

/-- R8, R109, R116: PSET, PWR and PBRK write a predicate (a write of p0 is discarded), PCNT and PRD read one; PWR of an illegal image
is an illegal operand. -/
def Obligations.PredicateInstructions : Prop :=
  ∀ (o : Ops) (s : State), Canonical s → Governed s o → o.x.pb = false → o.x.pc = false →
    let writes (i : Instr) (p : Pred) : Prop := ∃ t, exec i s = .next t ∧
      t.task.rdP (o.d.setWidth 3) = (if o.d.setWidth 3 = 0 then { span := 1, ew := 0, count := 32 } else p) ∧
      (∀ q, q ≠ o.d.setWidth 3 → t.task.rdP q = s.task.rdP q) ∧ t.task.v = s.task.v ∧ t.task.seed = s.task.seed ∧ VectorEnd o s t 0 false
    (∀ x, s.srcA o = .ok x →
      writes (.pset o) { span := BitVec.ofNat 3 o.b.toNat, ew := ewCode (laneBits o.x.tag),
                         count := BitVec.ofNat 8 (min x.toNat (o.b.toNat * (128 / laneBits o.x.tag))) } ∧
      ((predOf x).legal = true → writes (.pwr o) { span := x.extractLsb' 13 3, ew := x.extractLsb' 10 3, count := x.extractLsb' 0 8 }) ∧
      ((predOf x).legal = false → exec (.pwr o) s = .next (s.trap { kind := 2, info0 := (Instr.word (.pwr o)).setWidth 64 }))) ∧
    (o.x.pa = false → ∀ f, s.task.laneFormat o intTags false = .ok f → o.a.toNat + s.task.span o ≤ 32 →
      ∀ k, (∀ j, j < k → groupElem s.task o.a (laneBits f) j ≠ 0) →
        k = s.task.active o (laneBits f) ∨ (k < s.task.active o (laneBits f) ∧ groupElem s.task o.a (laneBits f) k = 0) →
        writes (.pbrk o) { span := BitVec.ofNat 3 (s.task.span o), ew := ewCode (laneBits f), count := BitVec.ofNat 8 k }) ∧
    (o.x.pa = false →
      Delivers (.pcnt o) o s s ((s.task.rdP (o.a.setWidth 3)).count.setWidth 64) 0 false ∧
      Delivers (.prd o) o s s (let p := s.task.rdP (o.a.setWidth 3); (0#48 ++ p.span ++ p.ew ++ 0#2 ++ p.count : BitVec 64)) 0 false)

/-- R135: VMOV copies a register with its tag (.ri: with the tag field), broadcasts a scalar to the active elements, reads element b of
a register into d (0 past its end) and replaces element b of d. -/
def Obligations.VectorMoves : Prop :=
  ∀ (o : Ops) (s : State), Canonical s → Governed s o → o.x.pc = false →
    (o.x.pa = false → o.x.pb = false → o.m = 0 → (o.x.tag = .raw ∨ o.x.ri = true ∨ (s.task.rdV o.a.toNat).tag = o.x.tag) →
      ∃ t, exec (.vmovCopy o) s = .next t ∧ (t.task.rdV o.d.toNat).bits = (s.task.rdV o.a.toNat).bits ∧
        (t.task.rdV o.d.toNat).tag = (if o.x.ri then o.x.tag else (s.task.rdV o.a.toNat).tag) ∧
        (∀ m, m ≠ o.d.toNat → t.task.rdV m = s.task.rdV m) ∧ t.task.p = s.task.p ∧ t.task.seed = s.task.seed ∧ VectorEnd o s t 0 false) ∧
    (o.x.pa = false → ∀ x, s.srcBL o = .ok x → o.d.toNat + s.task.span o ≤ 32 →
      ∃ t, exec (.vmovBcast o) s = .next t ∧
        GroupWritten s.task t.task o.d (s.task.span o) (laneBits o.x.tag) (s.task.active o (laneBits o.x.tag)) (zOf o) o.x.tag (fun _ => x.toNat) ∧
        t.task.p = s.task.p ∧ t.task.seed = s.task.seed ∧ VectorEnd o s t 0 false) ∧
    (o.x.pa = false → ∀ y, s.srcB o = .ok y → (o.x.tag = .raw ∨ (s.task.rdV o.a.toNat).tag = o.x.tag) →
      let r := s.task.rdV o.a.toNat
      let w := laneBits r.tag
      Delivers (.vmovGet o) o s s
        (if y.toNat < 128 / w then
          (if r.tag = .i4 ∨ r.tag = .i8 ∨ r.tag = .i16 ∨ r.tag = .i32 ∨ r.tag = .i64 then image r.tag (elem r w y.toNat)
           else BitVec.ofNat 64 (elem r w y.toNat)) else 0) 0 false) ∧
    ∀ x y, s.srcA o = .ok x → s.srcB o = .ok y →
      let r := s.task.rdV o.d.toNat
      let f := if o.x.tag ≠ .raw then o.x.tag else r.tag
      let w := laneBits f
      ∃ t, exec (.vmovSet o) s = .next t ∧
        (y.toNat < 128 / w → (t.task.rdV o.d.toNat).tag = f ∧
          ∀ k, k < 128 / w → elem (t.task.rdV o.d.toNat) w k = if k = y.toNat then x.toNat % 2 ^ w else elem r w k) ∧
        (128 / w ≤ y.toNat → t.task.rdV o.d.toNat = r) ∧
        (∀ m, m ≠ o.d.toNat → t.task.rdV m = s.task.rdV m) ∧ t.task.p = s.task.p ∧ t.task.seed = s.task.seed ∧ VectorEnd o s t 0 false

/-- R117 to R120: VLD and VLDB write the active elements, or the whole blocks, of the group d from the locations that the checks give,
and no memory; VST and VSTB store the active elements, or the blocks with their scale bytes, at those locations and change no
register. All the checks are made before anything is written; stores that the instruction has made before it had to wait are not made
again (R373). The bytes of memory beside those stored are as before in a paddock that traces no stores. -/
def Obligations.VectorMemory : Prop :=
  ∀ (o : Ops) (s : State), Canonical s → Governed s o →
    (∀ ea ls, s.vecAddr o = .ok ea →
      let w := max 8 (fmtBits o.x.tag)
      let act := s.task.active o w
      o.d.toNat + s.task.span o ≤ 32 → ea.toNat % (w / 8) = 0 → s.locs { r := true } ea (w / 8) act = .ok ls →
      (∀ l ∈ ls, s.locPoisoned l.2 (w / 8) = false) →
      ∃ t, exec (.vld o) s = .next t ∧
        GroupWritten s.task t.task o.d (s.task.span o) w act false o.x.tag (fun k => (ls[k]?.map fun l => s.readLoc l.2 (w / 8)).getD 0) ∧
        t.task.p = s.task.p ∧ t.task.seed = s.task.seed ∧ VectorEnd o s t 0 (acquires o)) ∧
    (∀ ea ls, s.vecAddr o = .ok ea →
      let f := if o.x.tag ≠ .raw then o.x.tag else (s.task.rdV o.d.toNat).tag
      let w := max 8 (fmtBits f)
      let act := s.task.active o w
      s.task.tagsAre 3 o.d (s.task.span o) f true f = .ok () →
      o.d.toNat + s.task.span o ≤ 32 → ea.toNat % (w / 8) = 0 → s.locs { w := true } ea (w / 8) act = .ok ls →
      ∀ u, s.storeAll (w / 8) (ls.zip ((List.range act).map (groupElem s.task o.d w))) = .ok u →
      ∃ t, exec (.vst o) s = .next t ∧ t.mem = u.mem ∧ t.scratch = u.scratch ∧ t.task.g = s.task.g ∧ t.task.v = s.task.v ∧
        t.task.p = s.task.p ∧ t.task.fsr = s.task.fsr ∧ Advanced o s t ∧ PortsTaken o false s t ∧
        (Untraced s → ∀ c, (∀ l ∈ ls, ∀ q e, l.2 = .phys q e → c < q ∨ q + w / 8 ≤ c) → t.mem.byte c = s.mem.byte c) ∧
        (∀ c, (∀ l ∈ ls, ∀ q, l.2 = .scratch q → c < q ∨ q + w / 8 ≤ c) → t.scratch.byte c = s.scratch.byte c)) ∧
    (∀ a b ls, s.srcA o = .ok a → s.srcB o = .ok b → o.d.toNat + s.task.span o ≤ 32 → a.toNat % 16 = 0 →
      let k := s.task.active o 4 / 32
      (s.blockLocs { r := true } a b k = .ok ls → (∀ l ∈ ls, s.locPoisoned l.1.2 16 = false ∧ s.locPoisoned l.2.2 1 = false) →
        ∃ t, exec (.vldb o) s = .next t ∧
          (∀ j, (h : j < ls.length) → t.task.rdV (o.d.toNat + j) =
            { bits := BitVec.ofNat 128 (s.readLoc ls[j].1.2 16), tag := o.x.tag, scale := BitVec.ofNat 8 (s.readLoc ls[j].2.2 1) }) ∧
          (∀ m, (m < o.d.toNat ∨ o.d.toNat + ls.length ≤ m) → t.task.rdV m = s.task.rdV m) ∧ t.task.p = s.task.p ∧
          t.task.seed = s.task.seed ∧ VectorEnd o s t 0 (acquires o)) ∧
      (s.task.tagsAre 3 o.d (s.task.span o) o.x.tag true o.x.tag = .ok () → s.blockLocs { w := true } a b k = .ok ls →
        ∀ u, s.storeEach (((List.range ls.length).zip ls).flatMap fun p =>
            let r := s.task.rdV (o.d.toNat + p.1)
            [{ va := p.2.1.1, loc := p.2.1.2, n := 16, v := r.bits.toNat }, { va := p.2.2.1, loc := p.2.2.2, n := 1, v := r.scale.toNat }]) = .ok u →
        ∃ t, exec (.vstb o) s = .next t ∧ t.mem = u.mem ∧ t.scratch = u.scratch ∧ t.task.g = s.task.g ∧ t.task.v = s.task.v ∧
          t.task.p = s.task.p ∧ t.task.fsr = s.task.fsr ∧ Advanced o s t ∧ PortsTaken o false s t ∧
          (Untraced s → ∀ c, (∀ l ∈ ls, (∀ q e, l.1.2 = .phys q e → c < q ∨ q + 16 ≤ c) ∧ ∀ q e, l.2.2 = .phys q e → c ≠ q) →
            t.mem.byte c = s.mem.byte c) ∧
          (∀ c, (∀ l ∈ ls, (∀ q, l.1.2 = .scratch q → c < q ∨ q + 16 ≤ c) ∧ ∀ q, l.2.2 = .scratch q → c ≠ q) →
            t.scratch.byte c = s.scratch.byte c) ∧
          (Untraced s → s.task.storesMade = 0 → ∀ l, ls = [l] → ∀ q e q' e', l.1.2 = .phys q e → l.2.2 = .phys q' e' → (q' < q ∨ q + 16 ≤ q') →
            t.mem.read q 16 = (s.task.rdV o.d.toNat).bits.toNat ∧ t.mem.byte q' = (s.task.rdV o.d.toNat).scale)))

namespace Sys2Proof.Claims

/-! ### Streams -/

/-- A stream instruction has ended: stream n is `r`, the others differ at most in what the alias guard reads again (none where the
instruction stores nothing), and beside registers, flags and port words nothing has changed. -/
def StreamEnd (o : Ops) (s t : State) (n : BitVec 2) (r : Stream) : Prop :=
  t.task.stream n = r ∧ (∀ m, m ≠ n → t.task.stream m = s.task.stream m) ∧ Advanced o s t ∧ PortsTaken o false s t ∧
  CoresAfter false s t ∧
  t.task = { s.task with g := t.task.g, v := t.task.v, fsr := t.task.fsr, pc := t.task.pc, ports := t.task.ports,
                         streams := t.task.streams, wait := .none } ∧
  OnlyTask s t

/-- Register d takes `v` (g0 keeps reading 0) and no other g register changes. -/
def RegTakes (o : Ops) (s t : State) (v : Word) : Prop :=
  t.task.rd o.d = (if o.d = 0 then 0 else v) ∧ ∀ n, n ≠ o.d → t.task.rd n = s.task.rd n

/-- No g and no v register and no flag has changed. -/
def RegsKept (s t : State) : Prop := t.task.g = s.task.g ∧ t.task.v = s.task.v ∧ t.task.fsr = s.task.fsr

/-- An event has made stream n of a task `r`; every other stream of the task is as before, and so are the other tasks and memory
where `quiet` holds (no counter is told of the event). -/
def StreamMoves (s u : State) (tid : Tid) (n : BitVec 2) (r : Stream) (quiet : Prop) : Prop :=
  (u.findTask tid).map (·.stream n) = some r ∧
  (∀ m, m ≠ n → (u.findTask tid).map (·.stream m) = (s.findTask tid).map (·.stream m)) ∧
  (quiet → (∀ y, y ≠ tid → u.findTask y = s.findTask y) ∧ SameMemory s u)

/-- The instruction ends in an illegal-operand trap (kind 2). -/
def IllegalOperand (i : Instr) (s : State) : Prop := exec i s = .next (s.trap { kind := 2, info0 := i.word.setWidth 64 })

end Sys2Proof.Claims

/-! ### Stream instructions -/

/-- R176 to R179, R195, R196: SDEF of a legal descriptor defines a free stream register; SGO starts a defined stream at its first
element, resumes a recalled one and lets a faulted one try its element again; SGO of a free register is an illegal operand. -/
def Obligations.StreamDefineAndGo : Prop :=
  ∀ (o : Ops) (s : State), Canonical s → o.x.pb = false → o.x.pc = false →
    (∀ va l0 l1, s.srcA o = .ok va → (s.task.stream (o.d.setWidth 2)).state = .free → s.contexts s.task.core < 8 → va.toNat % 64 = 0 →
      s.access { r := true } va = .ok l0 → s.access { r := true } (va + 64) = .ok l1 → s.notHaltered l0 = .ok () → s.notHaltered l1 = .ok () →
      s.locPoisoned l0 64 = false → s.locPoisoned l1 64 = false →
      let x : BitVec 1024 := BitVec.ofNat 1024 (s.readLoc l0 64 + 2 ^ 512 * s.readLoc l1 64)
      (Fmt.ofCode (x.extractLsb' 320 5).toNat).isSome → (descOf x).legal = true → (descOf x).evmask = 0 →
      ∃ t, exec (.sdef o) s = .next t ∧ RegsKept s t ∧
        StreamEnd o s t (o.d.setWidth 2) { state := .defined, desc := descOf x, pin := x.getLsbD 335 }) ∧
    (o.x.pa = false →
      let n := o.a.setWidth 2
      let r := s.task.stream n
      let becomes (r' : Stream) : Prop := ∃ t, exec (.sgo o) s = .next t ∧ RegsKept s t ∧ StreamEnd o s t n r'
      (r.state = .free → IllegalOperand (.sgo o) s) ∧
      (r.state = .defined → becomes { r with state := .running, hh := false, epoch := r.epoch + 1, goPc := s.task.pc, fidx := 0, didx := 0,
                                             acc := if r.desc.reducing then r.desc.accInit else 0, flg := 0, hops := 0, index := none }) ∧
      (r.state = .recalled → becomes { r with state := .running, hh := false, epoch := r.epoch + 1, goPc := s.task.pc }) ∧
      (r.state = .faulted → r.faultJ < r.desc.count →
        becomes { r with state := .running, hh := false, epoch := r.epoch + 1, goPc := s.task.pc, fcode := 0, index := none }))

/-- R180, R183, R197: SNEXT of a load stream whose next element lies in the core's buffer delivers it, scaled where the descriptor says
so and extended in an integer format, and counts it as delivered; the vector form delivers the elements that the predicate makes
active. `s0` is the state after the stream unit has fetched what it can, and `s` itself where the elements are there. -/
def Obligations.StreamNextDelivers : Prop :=
  ∀ (o : Ops) (s : State), Canonical s → o.x.pa = false → o.x.pb = false → o.x.pc = false →
    let n := o.a.setWidth 2
    let f := (s.task.stream n).desc.fmt
    let at_ (r : Stream) (i : Nat) : Nat × BitVec 6 :=
      r.desc.scaleBias (match r.buf.find? (·.1 == r.didx + i) with | some e => e.2.toNat | none => 0)
    let rest (r : Stream) (k : Nat) : Stream :=
      { r with didx := r.didx + k, buf := r.buf.filter fun e => r.didx + k ≤ e.1, pend := r.pend.filter fun j => r.didx + k ≤ j,
               read := r.read.filter fun e => r.didx + k ≤ e.1 }
    let ready (s0 : State) (k : Nat) : Prop :=
      let r := s0.task.stream n
      r.nextLegal k = true ∧ (o.x.tag = .raw ∨ o.x.tag = r.desc.fmt) ∧ (r.state = .faulted → r.didx + k ≤ r.faultJ) ∧
        (∀ i, i < k → r.buf.any (·.1 == r.didx + i) = true ∧ r.didx + i ∉ r.pend)
    (∀ k fits, 1 ≤ k → (s.task.stream n).buffered k = true → s.prepare o k fits = s) ∧
    (let s0 := s.prepare o 1 true
     let r := s0.task.stream n
     ready s0 1 → o.x.pd = false → Canonical s0 →
      ∃ t, exec (.snext o) s = .next t ∧ StreamEnd o s0 t n (rest r 1) ∧
        RegTakes o s0 t (if r.desc.fmt.isInt then image r.desc.fmt (at_ r 0).1 else BitVec.ofNat 64 (at_ r 0).1) ∧ t.task.v = s0.task.v ∧
        t.task.fsr = s0.task.fsr ||| (at_ r 0).2.setWidth 64) ∧
    (Governed s o →
     let k := s.task.active o (laneBits f)
     let s0 := s.prepare o k (groupFits o.d (s.task.span o)).isOk
     let r := s0.task.stream n
     ready s0 k → o.d.toNat + s0.task.span o ≤ 32 → Canonical s0 →
      ∃ t, exec (.snextVector o) s = .next t ∧ StreamEnd o s0 t n (rest r k) ∧ t.task.g = s0.task.g ∧
        GroupWritten s0.task t.task o.d (s0.task.span o) (laneBits f) k false f (fun i => (at_ r i).1) ∧
        t.task.fsr = s0.task.fsr ||| ((List.range k).foldl (fun a i => a ||| (at_ r i).2) 0).setWidth 64)

/-- R180, R183, R198: SPUT of a running store stream stores the value, scaled where the descriptor says so, at the address of the next
element and only there, once its home port has traced it (R373), and counts it; the last element ends the stream. The vector form stores the active elements of the group b
in order. -/
def Obligations.StreamPutStores : Prop :=
  ∀ (o : Ops) (s : State), Canonical s → o.x.pa = false → o.x.pc = false →
    let n := o.a.setWidth 2
    let r := s.task.stream n
    let w := laneBits r.desc.fmt
    r.state = .running → r.desc.mode = 1 → (o.x.tag = .raw ∨ o.x.tag = r.desc.fmt) → s.task.storesMade = 0 →
    (∀ y va l s1, s.srcB o = .ok y → r.didx < r.desc.count → vaOf (r.desc.element r.didx) = some va → s.access { w := true } va = .ok l →
      StoreFree s l r.desc.size → s.traced l = .ok s1 →
      let e := r.desc.scaleBias (y.toNat % 2 ^ w)
      ∃ t, exec (.sput o) s = .next t ∧ Stored s1 t l r.desc.size e.1 ∧ StoreFrame s1 t l ∧ Advanced o s t ∧ PortsTaken o false s t ∧
        t.task.stream n = { r with didx := r.didx + 1, state := if r.didx + 1 = r.desc.count then .ended else .running,
                                   hh := if r.didx + 1 = r.desc.count then false else r.hh } ∧
        t.task.g = s.task.g ∧ t.task.v = s.task.v ∧ t.task.fsr = s.task.fsr ||| e.2.setWidth 64) ∧
    (o.x.pb = false → Governed s o → s.task.tagsAre 1 o.b (s.task.span o) r.desc.fmt true r.desc.fmt = .ok () →
      o.b.toNat + s.task.span o ≤ 32 →
      let k := s.task.active o w
      k ≤ r.desc.count - r.didx → (∀ i, i < k → (vaOf (r.desc.element (r.didx + i))).isSome) →
      ∀ u, s.sputAll o ((List.range k).map (groupElem s.task o.b w)) = .ok u →
        exec (.sputVector o) s = .next u ∧ (u.task.stream n).didx = r.didx + k ∧ Advanced o s u ∧ u.task.g = s.task.g ∧
          u.task.v = s.task.v ∧ (k = 0 → SameMemory s u))

/-- R184, R199 to R203: SSINK of an ended reduction delivers the accumulator (or, for a sink elsewhere, the number of elements), merges
its flags and clears them; SRECALL makes a stream at the core recalled once its pending entries are answered, and waits for them; SWAIT.home completes when the saddlebag is home, SWAIT.end
when the stream has ended; SSTAT reads the status image and .clr clears the EV bits; SHOLD sets HP and .off clears it with PIN. A free
register is an illegal operand of all of them but SSTAT and SSTAT.clr. -/
def Obligations.StreamControl : Prop :=
  ∀ (o : Ops) (s : State), Canonical s → o.x.pa = false → o.x.pb = false → o.x.pc = false →
    let n := o.a.setWidth 2
    let r := s.task.stream n
    let ends (i : Instr) (r' : Stream) : Prop := ∃ t, exec i s = .next t ∧ RegsKept s t ∧ StreamEnd o s t n r'
    (let s0 := if r.desc.reducing then s.prepareEnd n else s
     let q := s0.task.stream n
     q.state = .ended → q.desc.reducing = true → o.x.pd = false → Canonical s0 →
      ∃ t, exec (.ssink o) s = .next t ∧ StreamEnd o s0 t n { q with flg := 0 } ∧ t.task.v = s0.task.v ∧
        RegTakes o s0 t (if q.desc.sink = 0 then q.acc else BitVec.ofNat 64 q.desc.count) ∧
        t.task.fsr = s0.task.fsr ||| q.flg.setWidth 64) ∧
    (r.state = .running → r.station = none → r.pend = [] → ends (.srecall o) { r with state := .recalled, grant := none }) ∧
    (r.state = .running → r.station = none → r.pend ≠ [] → exec (.srecall o) s = .next (s.stall .retry)) ∧
    (r.state ≠ .free → r.state ≠ .running → r.state ≠ .floated → r.state ≠ .hopping → r.station = none →
      ends (.srecall o) r) ∧
    (r.state ≠ .free → r.station = none → ends (.swaitHome o) r) ∧
    (let s0 := s.prepareEnd n
     let q := s0.task.stream n
     q.state ≠ .free → q.state ≠ .defined → q.state ≠ .faulted → (if q.desc.reducing then q.state = .ended else q.didx = q.desc.count) →
      ∃ t, exec (.swaitEnd o) s = .next t ∧ RegsKept s0 t ∧ StreamEnd o s0 t n q) ∧
    Delivers (.sstat o) o s s r.image 0 false ∧
    (o.x.pd = false → ∃ t, exec (.sstatClr o) s = .next t ∧ StreamEnd o s t n { r with ev := 0 } ∧ RegTakes o s t r.image ∧
      t.task.v = s.task.v ∧ t.task.fsr = s.task.fsr) ∧
    (r.state ≠ .free → r.state ≠ .floated → r.state ≠ .hopping → ends (.shold o) { r with hp := true }) ∧
    (r.state ≠ .free → ends (.sholdOff o) { r with hp := false, pin := false }) ∧
    (r.state = .free → IllegalOperand (.srecall o) s ∧ IllegalOperand (.swaitHome o) s ∧ IllegalOperand (.swaitEnd o) s ∧
      IllegalOperand (.shold o) s ∧ IllegalOperand (.sholdOff o) s)

/-- R186 to R188, R200, R205: a running stream at the core floats to the station of its next element (event 1), leaves a station whose
next element lies elsewhere, with the fold count of a reduction in its note, arrives there with a hop counted (event 2), and comes home
where it was recalled (event 8), recalled once no entry is pending; none of it while an event of the stream is held at a counter in transit
(R307, assumption 56). -/
def Obligations.StreamTravels : Prop :=
  ∀ (s : State) (tid : Tid) (n : BitVec 2) (t : Task), s.findTask tid = some t →
    let r := t.stream n
    let quiet (bit : BitVec 4) : Prop := r.desc.evmask &&& bit = 0
    let counted : Nat := if r.desc.reducing then r.fidx else r.didx
    s.eventHeld tid n = false →
    (∀ st, t.streaming = true → r.state = .running → (r.desc.mode = 0 ∨ r.desc.mode = 2) → r.pin = false → r.hh = false → r.hp = false →
      r.fidx < r.desc.count → s.stationOf t r = some st →
      ∃ u, exec (.streamFloat tid n) s = .next u ∧
        StreamMoves s u tid n { r with state := .floated, station := some st, grant := none, ev := r.ev ||| 1 } (quiet 1)) ∧
    (∀ st, r.state = .floated → r.fidx < r.desc.count → s.stationOf t r = some st → r.station ≠ some st →
      ∃ u, exec (.saddlebagLeave tid n) s = .next u ∧ StreamMoves s u tid n { r with state := .hopping, didx := counted, grant := none } True) ∧
    (∀ st, r.state = .hopping → s.stationOf t r = some st → r.hops ≠ 0xFFFF →
      ∃ u, exec (.saddlebagArrive tid n) s = .next u ∧
        StreamMoves s u tid n { r with state := .floated, station := some st, hops := r.hops + 1, ev := r.ev ||| 2 } (quiet 2)) ∧
    (∀ st, r.station = some st → r.state ≠ .sinking → r.recalling = true →
      ∃ u, exec (.saddlebagHome tid n) s = .next u ∧
        StreamMoves s u tid n
          { r with
              state := if r.pend = [] then .recalled else .running
              station := none, recalling := false, homing := false, answers := [], grant := none
              didx := counted, ev := r.ev ||| 8 } (quiet 8))

/-- R178, R180, R187, R190 to R192: an element that can be read is fetched at the core or at its station and counted; one on its way
arrives in the buffer; a note makes the station, or the core where the saddlebag is home, read a pending element again, and the value
replaces every copy; an indexed stream reads the index, then the element that it names; an element that cannot be read makes the stream
faulted there, and brings home a saddlebag that is away. A fetch reads as a plain load of the task does; nothing is fetched while an event
of the stream is held at a counter in transit (R307, assumption 56), and what a poisoned element or a code bit that is clear adds is left
out here. -/
def Sys2Proof.Claims.StreamElements : Prop :=
  ∀ (s : State) (tid : Tid) (n : BitVec 2) (t : Task), s.findTask tid = some t → t.streaming = true →
    let r := t.stream n
    let w := t.streamWho r
    let moves (i : Instr) (r' : Stream) : Prop := ∃ u, exec i s = .next u ∧ StreamMoves s u tid n r' True
    let replaced (j : Nat) (v : Word) (l : List (Nat × Word)) : List (Nat × Word) := l.map fun e => if e.1 = j then (j, v) else e
    let reads (w : Who) (a : Int) (v : Nat) : Prop := ∃ va l, s.fetchLoc w tid a = .ok (va, l) ∧ s.needsX l = false ∧
      s.locPoisoned l r.desc.size = false ∧ v = s.readLoc l r.desc.size
    (r.desc.mode = 0 → r.index = none → s.eventHeld tid n = false → r.fidx + 1 < r.desc.count → ∀ v, reads w (r.desc.element r.fidx) v →
      (r.state = .running → r.station = none → r.pend = [] →
        moves (.coreElementFetch tid n) { r with fidx := r.fidx + 1, grant := none, buf := r.buf ++ [(r.fidx, BitVec.ofNat 64 v)] }) ∧
      (∀ st, r.state = .floated → r.station = some st → s.stationOf t r = some st →
        moves (.stationElementFetch tid n) { r with fidx := r.fidx + 1, grant := none, sent := r.sent ++ [(r.fidx, BitVec.ofNat 64 v)] })) ∧
    (∀ e rest, r.sent = e :: rest → moves (.elementArrival tid n) { r with sent := rest, buf := r.buf ++ [e] }) ∧
    (∀ j l, j ∈ r.pend → s.elementPath w tid r.desc j = .ok l → l.any s.leaves = false →
      let x := BitVec.ofNat 64 (s.pathValue l)
      (r.desc.mode = 0 → ∀ v, reads w (r.desc.element j) v → s.pathValue l = v) ∧
      (r.state = .floated → r.station.isSome → r.answers = [] → s.eventHeld tid n = false →
        moves (.aliasNote tid n j) { r with answers := [(j, x)] }) ∧
      (r.station = none →
        moves (.aliasNote tid n j)
          { r with
              pend := r.pend.filter (· != j), buf := replaced j x r.buf, sent := replaced j x r.sent
              read := r.read.map fun e => if e.1 = j then (j, s.pathIndex l) else e })) ∧
    (∀ a rest, r.answers = a :: rest →
      moves (.aliasRereadAnswer tid n)
        { r with
            answers := rest, pend := r.pend.filter (· != a.1)
            buf := replaced a.1 a.2 r.buf
            sent := replaced a.1 a.2 r.sent }) ∧
    (∀ x v, r.state = .running → r.desc.mode = 3 → r.desc.op = 0 → r.station = none → r.pend = [] → r.index = some x →
      r.fidx + 1 < r.desc.count → (r.desc.target x.toNat < 0xFFFFFFFC0000 ∨ (2 : Int) ^ 48 ≤ r.desc.target x.toNat) →
      s.eventHeld tid n = false → reads (s.targetWho t r (r.desc.target x.toNat)) (r.desc.target x.toNat) v →
      moves (.indexedElementRequest tid n)
        { r with
            fidx := r.fidx + 1, index := none, grant := none, buf := r.buf ++ [(r.fidx, BitVec.ofNat 64 v)]
            read := r.read ++ [(r.fidx, x.toNat)] }) ∧
    (∀ e, r.desc.mode = 0 → r.fidx < r.desc.count → s.eventHeld tid n = false →
      s.fetchLoc w tid (r.desc.element r.fidx) = .error (some e) →
      (r.state = .running → r.station = none → r.pend = [] →
        moves (.elementFault tid n)
          { r with state := .faulted, fcode := e.code, faultJ := r.fidx, faultInfo := e.info, faultLevel := e.level, grant := none, traced := none }) ∧
      (∀ st, (r.state = .floated ∨ r.state = .hopping) → r.station = some st → r.desc.evmask &&& 8 = 0 →
        moves (.elementFault tid n)
          { r with
              state := .faulted, fcode := e.code, faultJ := r.fidx, faultInfo := e.info, faultLevel := e.level, grant := none, traced := none
              station := none, recalling := false, homing := false, answers := [], ev := r.ev ||| 8 }))

/-- R184: the sink of a complete reduction: SINK 0 only ends the stream, SINK 2 stores the accumulator at SINKA and only there, once
its home port has traced the store. -/
def Sys2Proof.Claims.StreamSinks : Prop :=
  ∀ (s : State) (tid : Tid) (n : BitVec 2) (t : Task), Canonical s → s.findTask tid = some t → t.streaming = true →
    let r := t.stream n
    r.state = .sinking → r.station = none → s.eventHeld tid n = false →
    (r.desc.sink = 0 → ∃ u, exec (.streamSink tid n) s = .next u ∧
      StreamMoves s u tid n { r with state := .ended, hh := false, markWait := none, traced := none, grant := none, ev := r.ev ||| 4 } (r.desc.evmask &&& 4 = 0)) ∧
    (∀ pa e s1, r.desc.sink = 2 → s.check (t.streamWho r) { w := true } r.desc.sinka = .ok (.phys pa e) → s.haltered tid (lineOf pa) = false →
      r.traced = none → s.tracedFor t (.phys pa e) = .ok s1 → s1.isCode pa = false → r.desc.evmask &&& 4 = 0 →
      ∃ u, exec (.streamSink tid n) s = .next u ∧ ((u.findTask tid).map fun t => (t.stream n).state) = some .ended ∧
        Stored s1 u (.phys pa e) 8 r.acc.toNat)

/-- R180 to R190: what the fetches and the sinks of streams do. -/
def Obligations.StreamElementEvents : Prop :=
  Sys2Proof.Claims.StreamElements ∧ Sys2Proof.Claims.StreamSinks

/-! ### Tiles and the weight buffer -/

/-- R207, R217, R219: TZERO and TFILL fill the physical tile that d names with 0 or with the element of a, TMOV copies a tile with its
tag, scales and has-special bits; no other tile, register or byte of memory changes. An unmapped window entry is an illegal operand. -/
def Sys2Proof.Claims.TileFills : Prop :=
  ∀ (o : Ops) (s : State) (p : Nat), Canonical s → o.x.pb = false → o.x.pc = false → s.task.window o.d.toNat = some p →
    let c := s.task.cluster
    let fills (i : Instr) (q : Tile → Prop) : Prop := ∃ t, exec i s = .next t ∧ q (t.tileAt c p) ∧
      (∀ c' p', (c', p') ≠ (c, p) → t.tileAt c' p' = s.tileAt c' p') ∧ Advanced o s t ∧ PortsTaken o false s t ∧ CoresAfter false s t ∧
      t.task = { s.task with pc := t.task.pc, ports := t.task.ports, wait := .none } ∧
      t = { s with task := t.task, cores := t.cores, clusters := t.clusters } ∧ SameMemory s t
    (o.x.pa = false → s.tileBusy c p true = false → fills (.tzero o) (· = { tag := o.x.tag })) ∧
    (∀ x, s.srcA o = .ok x → s.tileBusy c p true = false →
      let f := o.x.tag
      let w := fmtBits f
      fills (.tfill o) fun y => y.tag = f ∧ (∀ i j, i < 32 → j < 512 / w → elemAt (y.row i) w j = x.toNat % 2 ^ w) ∧
        (∀ i b, i < 32 → b < 4 → y.scale i b = if f.isBlock then x.extractLsb' 8 8 else 0) ∧
        y.special = if isSpecial f (if f.isBlock then x.extractLsb' 8 8 else 0) (x.toNat % 2 ^ w) then BitVec.allOnes 32 else 0) ∧
    (∀ q, o.x.pa = false → s.task.window o.a.toNat = some q → s.tileBusy c q false = false → s.tileBusy c p true = false →
      fills (.tmov o) (· = s.tileAt c q))

/-- R37, R41, R43, R207, R218: TCVT converts tile a into tile d, each element in the rounding mode. Where d has at most as many columns as
a, its columns come from part P of a's; where it has more, a's columns become part P of d's, and the others are zero codes for P = 0 and
else keep their bits. A block that the part touches is rebuilt from its 32 columns, the kept ones by their values; one that it does not
touch is kept. Under .rs every column written draws in order, the kept columns of a rebuilt block included, and SEED advances; the flags
are merged, and a has-special bit marks each row that holds an infinity or a NaN. -/
def Sys2Proof.Claims.TileConverts : Prop :=
  ∀ (o : Ops) (s : State) (pd ps : Nat), Canonical s → o.x.pa = false → o.x.pb = false → o.x.pc = false →
    s.task.window o.d.toNat = some pd → s.task.window o.a.toNat = some ps →
    let c := s.task.cluster
    let src := s.tileAt c ps
    let old := s.tileAt c pd
    let f := o.x.tag
    let es := 512 / fmtBits src.tag
    let ed := 512 / fmtBits f
    let part := (o.x.mod.extractLsb' 2 3).toNat
    let narrow := ed ≤ es
    s.tileBusy c ps false = false → s.tileBusy c pd true = false → src.tag ≠ .raw → src.tag ≠ .e2m1 →
    (if narrow then part < es / ed else part < ed / es ∧ (part ≠ 0 → old.tag = f)) →
    let from_ (j : Nat) : Option Nat :=
      if narrow then some (part * ed + j) else if part * es ≤ j ∧ j < part * es + es then some (j - part * es) else none
    -- the first column of a row that draws, and how many do
    let first := if narrow ∨ part = 0 then 0 else if f.isBlock then part * es / 32 * 32 else part * es
    let perRow := if narrow ∨ part = 0 then ed else if f.isBlock then (es + 31) / 32 * 32 else es
    let draw (i j : Nat) : BitVec 16 :=
      if o.x.rm = .rs then (draws s.task.seed (32 * perRow)).1.getD (i * perRow + (j - first)) 0 else 0
    let single (i j : Nat) : Nat × BitVec 6 :=
      match from_ j with
      | some k => convert src.tag f (satOf o) o.x.rm (draw i j) (src.scale i (k / 32)) (src.elem i k)
      | none => (if part = 0 then 0 else old.elem i j, 0)
    let cols (b : Nat) : List Nat := (List.range 32).map (32 * b + ·)
    let block (i b : Nat) : BitVec 8 × List Nat × BitVec 6 :=
      if part ≠ 0 ∧ (cols b).all (fun j => (from_ j).isNone) then (old.scale i b, (cols b).map (old.elem i), 0)
      else toBlock f o.x.c.toNat o.x.rm ((cols b).map (draw i)) ((cols b).map fun j =>
        match from_ j with
        | some k => src.num i k
        | none => if part = 0 then .fin false 0 0 else old.num i j)
    let flags : BitVec 6 := (List.range 32).foldl (fun a i =>
      if f.isBlock then (List.range 4).foldl (fun a b => a ||| (block i b).2.2) a
      else (List.range ed).foldl (fun a j => a ||| (single i j).2) a) 0
    ∃ t, exec (.tcvt o) s = .next t ∧
      let y := t.tileAt c pd
      y.tag = f ∧
      (∀ i, i < 32 →
        (f.isBlock = false → ∀ j, j < ed → elemAt (y.row i) (fmtBits f) j = (single i j).1 % 2 ^ fmtBits f) ∧
        (f.isBlock = true → ∀ b, b < 4 → y.scale i b = (block i b).1 ∧
          ∀ j, j < 32 → elemAt (y.row i) 4 (32 * b + j) = (block i b).2.1.getD j 0 % 16) ∧
        y.special.getLsbD i = ((Fmt.isFp f || f.isBlock) && (List.range ed).any fun j => isSpecial f (y.scale i (j / 32)) (y.elem i j))) ∧
      (∀ c' p', (c', p') ≠ (c, pd) → t.tileAt c' p' = s.tileAt c' p') ∧ Advanced o s t ∧
      t.task.seed = (if o.x.rm = .rs then (draws s.task.seed (32 * perRow)).2 else s.task.seed) ∧
      t.task = { s.task with pc := t.task.pc, seed := t.task.seed, fsr := s.task.fsr ||| flags.setWidth 64, wait := .none } ∧
      t = { s with task := t.task, clusters := t.clusters } ∧ SameMemory s t

/-- R211 to R216: TLD fills the tile that d names from the rows and scale bytes that the checks give, TST stores the rows and scale
bytes of its tile there and changes no tile; where every line is free of other tasks' halters the access commits at once. -/
def Sys2Proof.Claims.TileLoadsAndStores : Prop :=
  ∀ (o : Ops) (s : State) (a : TileAccess), Canonical s →
    (∀ l ∈ a.lines, s.haltered s.task.tid l.1 = false) →
    (s.planTile o false = .ok a → (∀ r ∈ a.rows, s.poisoned r.2 64 = false) →
      ∃ t, exec (.tld o) s = .next t ∧ (t.tileAt s.task.cluster a.pt).tag = o.x.tag ∧
        (∀ i, (h : i < a.rows.length) → i < 32 → (t.tileAt s.task.cluster a.pt).row i = s.mem.read a.rows[i].2 64) ∧
        (∀ i, a.rows.length ≤ i → i < 32 → (t.tileAt s.task.cluster a.pt).row i = 0) ∧
        (∀ c p, (c, p) ≠ (s.task.cluster, a.pt) → t.tileAt c p = s.tileAt c p) ∧ Advanced o s t ∧ PortsTaken o false s t ∧
        t.task.g = s.task.g ∧ t.task.v = s.task.v ∧ SameMemory s t) ∧
    (s.planTile o true = .ok a → (∀ r ∈ a.rows ++ a.scs, s.isCode r.2 = false) →
      ∃ t, exec (.tst o) s = .next t ∧ (∀ c p, t.tileAt c p = s.tileAt c p) ∧ Advanced o s t ∧ PortsTaken o false s t ∧
        t.task.g = s.task.g ∧ t.task.v = s.task.v ∧ (∀ x, t.scratch.byte x = s.scratch.byte x) ∧
        (∀ x, (∀ r ∈ a.rows, x < r.2 ∨ r.2 + 64 ≤ x) → (∀ r ∈ a.scs, x < r.2 ∨ r.2 + 4 ≤ x) → t.mem.byte x = s.mem.byte x) ∧
        (∀ r, a.rows = [r] → a.scs = [] → t.mem.read r.2 64 = (s.tileAt s.task.cluster a.pt).row 0))

/-- R168, R213, R214, R346: an access that waits takes the halter of its next line where no other task holds it, which for a store on its
die's slice leaves the die the owner and no core of it a copy; it is refused by a stack in transit and rolls back; it commits once it holds
them all, and rolls back without effect on memory: its halters drop and the instruction starts again. -/
def Sys2Proof.Claims.TileAccessEvents : Prop :=
  ∀ (s : State) (a : TileAccess), s.task.tile = some a →
    let tid := s.task.tid
    (∀ l, a.lines[a.held]? = some l → (s.stack (stackOf (64 * l.1))).inTransit = false → s.haltered tid l.1 = false →
      ∃ u, exec (.halterAcquire tid) s = .next u ∧ u.halters = s.halters ++ [{ line := l.1, tid := tid, level := l.2, die := s.task.die }] ∧
        u.task.tile = some { a with held := a.held + 1 } ∧ u.task.pc = s.task.pc ∧ SameMemory s u ∧
        (Canonical s → a.store = true → l.2 = .slice → u.l3State l.1 s.task.die = .M ∧ ∀ c, c / 2304 = s.task.die →
          (s.island (islandOf c)).state ≠ .hold → (u.line c l.1).present = false)) ∧
    (∀ l, a.lines[a.held]? = some l → (s.stack (stackOf (64 * l.1))).inTransit = true →
      ∃ u, exec (.halterAcquire tid) s = .next u ∧ u.task.tile = none ∧ (∀ h ∈ u.halters, h.tid ≠ tid) ∧ SameMemory s u) ∧
    (∀ u, a.held = a.lines.length → s.commitTile a = .ok u →
      exec (.tileAccessCommit tid) s = .next u ∧ u.task.tile = none ∧ u.task.cstate = .running ∧ Advanced a.o s u ∧
        ∀ h ∈ u.halters, h.tid ≠ tid) ∧
    (∃ u, exec (.tileAccessRollback tid) s = .next u ∧ u.task.tile = none ∧ u.task.pc = s.task.pc ∧ (∀ h ∈ u.halters, h.tid ≠ tid) ∧
      (∀ h ∈ s.halters, h.tid ≠ tid → h ∈ u.halters) ∧ SameMemory s u)

/-- R213 to R215: the tile loads and stores, and the events of their accesses. -/
def Obligations.TileMemory : Prop :=
  Sys2Proof.Claims.TileLoadsAndStores ∧ Sys2Proof.Claims.TileAccessEvents

/-- R221, R222: WLD copies the units of a panel from memory to the weight buffer at unit a, delivers their number, and changes no other
unit. -/
def Sys2Proof.Claims.WeightLoad : Prop :=
  ∀ (o : Ops) (s : State) (a b : Word) (l0 : Loc) (ls : List (Word × Loc)), Canonical s → o.x.pd = false → s.srcA o = .ok a → s.srcB o = .ok b →
    b.toNat % 32 = 0 → s.access { r := true } b = .ok l0 → s.notHaltered l0 = .ok () →
    let head : BitVec 256 := BitVec.ofNat 256 (s.readLoc l0 32)
    let size := panelSize head
    let c := s.task.cluster
    s.locPoisoned l0 32 = false → (∀ l ∈ ls, s.locPoisoned l.2 32 = false) →
    opClass (headTag head) ≠ 0 → s.locs { r := true } b 32 size = .ok ls → a.toNat + size ≤ 32768 →
    (s.cluster c).unitReserved a.toNat (a.toNat + size) = false →
    ∃ t, exec (.wld o) s = .next t ∧ RegTakes o s t (BitVec.ofNat 64 size) ∧
      (∀ k, (h : k < ls.length) → ((t.cluster c).unit (a.toNat + k)).bytes = BitVec.ofNat 256 (s.readLoc ls[k].2 32)) ∧
      (∀ u, (u < a.toNat ∨ a.toNat + ls.length ≤ u) → (t.cluster c).unit u = (s.cluster c).unit u) ∧
      (∀ c' p, t.tileAt c' p = s.tileAt c' p) ∧ Advanced o s t ∧ PortsTaken o false s t ∧ SameMemory s t

/-- R210 to R217: fills, conversions and moves of tiles, and the weight load. -/
def Obligations.TilesAndWeights : Prop :=
  Sys2Proof.Claims.TileFills ∧ Sys2Proof.Claims.TileConverts ∧ Sys2Proof.Claims.WeightLoad

/-! ### The matrix engine -/

/-- R223 to R226, R228: an MMA, or an MJOB of a record that its engine accepts, takes one free entry of the queue: GEN rises and passes
over 0, the job waits with the priority of its control word behind the jobs accepted before it; MJOB delivers the handle. A full queue, one of an engine whose clocks stand (DESIGN CHOICE, assumption 63), and a way that
is missing (R360) stall. Which free entry is taken is the model's free choice. -/
def Sys2Proof.Claims.JobsEnterQueue : Prop :=
  ∀ (o : Ops) (s : State), Canonical s →
    let k := s.task.cluster
    let entered (u : State) (k e : Nat) (rec : BitVec 512 → Prop) (mma : Bool) : Prop :=
      let j := (u.cluster k).job e
      let g := ((s.cluster k).job e).gen + 1
      ((s.cluster k).job e).live = false ∧ j.taken = true ∧ j.state = .queued ∧ j.gen = (if g = 0 then 1 else g) ∧ rec j.record ∧ j.mma = mma ∧
        j.tid = s.task.tid ∧ j.epri = ctlPri j.ctl ∧ j.order = (s.cluster k).accepted ∧ j.kdone = 0 ∧
        (u.cluster k).accepted = (s.cluster k).accepted + 1 ∧ (∀ p, u.tileAt k p = s.tileAt k p) ∧ SameMemory s u
    (∀ d0 d1 pa pb ctl, o.x.pa = false → o.x.pb = false → o.d.getLsbD 0 = false → s.task.window o.d.toNat = some d0 →
      s.task.window (o.d.toNat + 1) = some d1 → s.task.window o.a.toNat = some pa → s.task.window o.b.toNat = some pb → s.srcC o = .ok ctl →
      d0 ≠ pa → d0 ≠ pb → d1 ≠ pa → d1 ≠ pb →
      let c := s.cluster k
      let tid := s.task.tid
      tagsRefused (c.tagAfter tid pa) (c.tagAfter tid pb) [c.tagAfter tid d0, c.tagAfter tid d1] (ctlAcc0 ctl) = none →
      ctlFits ctl (c.tagAfter tid pa) (c.tagAfter tid pb) ((groupSize (c.tagAfter tid pa) (c.tagAfter tid pb)).getD 16) = true →
      (∀ p ∈ [d0, d1, pa, pb], (c.tile p).loading = false) → c.freeEntries ≠ [] →
      ∃ t e, exec (.mma o) s = .next t ∧ entered t k e (· = mmaRecord ctl pa pb d0 false 0) true ∧ Advanced o s t ∧ t.task.g = s.task.g) ∧
    (∀ d0 d1 pa unit ctl, o.x.pa = false → o.d.getLsbD 0 = false → s.task.window o.d.toNat = some d0 →
      s.task.window (o.d.toNat + 1) = some d1 → s.task.window o.a.toNat = some pa → s.srcB o = .ok unit → s.srcC o = .ok ctl →
      d0 ≠ pa → d1 ≠ pa →
      let c := s.cluster k
      let tid := s.task.tid
      let tb := headTag (c.unit unit.toNat).bytes
      c.panelFits unit.toNat = true → opClass tb ≠ 0 →
      tagsRefused (c.tagAfter tid pa) tb [c.tagAfter tid d0, c.tagAfter tid d1] (ctlAcc0 ctl) = none →
      ctlFits ctl (c.tagAfter tid pa) tb ((groupSize (c.tagAfter tid pa) tb).getD 16) = true →
      (∀ p ∈ [d0, d1, pa], (c.tile p).loading = false) → c.freeEntries ≠ [] →
      ∃ t e, exec (.mmaWbuf o) s = .next t ∧ entered t k e (· = mmaRecord ctl pa 0 d0 true unit.toNat) true ∧ Advanced o s t ∧ t.task.g = s.task.g) ∧
    (∀ a b r, o.x.pd = false → s.srcA o = .ok a → s.srcB o = .ok b → (b = BitVec.allOnes 64 ∨ b.toNat ≤ 1151) → s.load {} a 64 64 = .ok r →
      let k' := if b = BitVec.allOnes 64 then k else b.toNat
      let j : Job := { record := BitVec.ofNat 512 r, tid := s.task.tid, tenant := s.task.tenant, aspace := s.task.aspace, core := s.task.core, sup := s.task.sup }
      s.engineWay k' = true → s.clocked k' = true →
      (k' = k ∨ s.refuseRemote k' (BitVec.ofNat 512 r) s.task.tenant = 0) → (s.cluster k').refuse j = 0 → (s.cluster k').freeEntries ≠ [] →
      ∃ t e, exec (.mjob o) s = .next t ∧ entered t k' e (· = BitVec.ofNat 512 r) false ∧ Advanced o s t ∧
        Sys2Proof.Claims.RegTakes o s t (((t.cluster k').job e).gen ++ 0#5 ++ BitVec.ofNat 11 k' ++ 0#27 ++ BitVec.ofNat 5 e)) ∧
    (∀ a b r code, o.x.pd = false → s.srcA o = .ok a → s.srcB o = .ok b → b = BitVec.allOnes 64 → s.load {} a 64 64 = .ok r → s.engineWay k = true →
      (s.cluster k).refuse { record := BitVec.ofNat 512 r, tid := s.task.tid, tenant := s.task.tenant, aspace := s.task.aspace,
                             core := s.task.core, sup := s.task.sup } = code → code ≠ 0 →
      Delivers (.mjob o) o s s (0#16 ++ 0#5 ++ BitVec.ofNat 11 k ++ 0#16 ++ code ++ 0#8 : BitVec 64) 0 false) ∧
    (∀ a r, o.x.pd = false → s.srcA o = .ok a → s.srcB o = .ok (BitVec.allOnes 64) → s.load {} a 64 64 = .ok r →
      let j : Job := { record := BitVec.ofNat 512 r, tid := s.task.tid, tenant := s.task.tenant, aspace := s.task.aspace, core := s.task.core, sup := s.task.sup }
      (s.engineWay k = false ∨ ((s.cluster k).refuse j = 0 ∧ (s.clocked k = false ∨ (s.cluster k).freeEntries = []))) →
      exec (.mjob o) s = .next (s.stall .retry))

/-- R228, R230: JPOLL delivers the status of a handle, once the query has a way to the engine's die (R360); JWAIT delivers it once the
job is done, faulted, refused or unknown. -/
def Sys2Proof.Claims.JobStatusDelivered : Prop :=
  ∀ (o : Ops) (s : State) (h : Word), Canonical s → s.srcA o = .ok h → s.queryWay h = .ok () →
    Delivers (.jpoll o) o s s (s.jobStatus h).1 0 false ∧
    ((s.jobStatus h).2 = true → Delivers (.jwait o) o s (s.acquire o) (s.jobStatus h).1 0 (acquires o)) ∧
    (h = 0 → (s.jobStatus h).1 = 7) ∧
    (∀ gen e, gen ≠ 0#16 → h = gen ++ 0#5 ++ BitVec.ofNat 11 s.task.cluster ++ 0#27 ++ (e : BitVec 5) → s.task.cluster ≤ 1151 →
      let j := (s.cluster s.task.cluster).job e.toNat
      j.taken = true → j.gen = gen → j.state ≠ .queued → j.state ≠ .overtaken →
      ((s.jobStatus h).1.extractLsb' 0 4).toNat = j.state.code.toNat ∧ (s.jobStatus h).1.extractLsb' 8 8 = j.code ∧
        ((s.jobStatus h).2 = true ↔ j.state = .done ∨ j.state = .faulted))

/-- R223 to R230: how jobs enter the queue, and the status of a handle. -/
def Obligations.JobQueue : Prop :=
  Sys2Proof.Claims.JobsEnterQueue ∧ Sys2Proof.Claims.JobStatusDelivered

/-- R225 to R231: the events of the queue. A job that reaches its engine is accepted as MJOB's; a k-step of a running job whose checks
pass counts one and merges its flags; the last one completes the job, which tells CMPL nothing where it is 0; a waiting job's priority
rises by one in 4,096 clks while the engine's clocks run (R21); a job of a halted task is held at a k-step boundary and is cancelled (code 9) once its context is gone. -/
def Obligations.JobEvents : Prop :=
  ∀ (s : State) (c e : Nat), Canonical s → e < 32 →
    let j := (s.cluster c).job e
    let after (i : Instr) (p : Job → Prop) : Prop := ∃ u, exec i s = .next u ∧ p ((u.cluster c).job e) ∧
      (∀ c', c' ≠ c → u.cluster c' = s.cluster c') ∧ SameMemory s u
    (∀ record t, s.findTask t.tid = some t → s.clocked c = true → (s.cluster c).freeEntries = [e] →
      (s.cluster c).refuse { record := record, tid := t.tid, tenant := t.tenant, aspace := t.aspace, core := t.core, sup := t.sup } = 0 →
      after (.jobAccept c record t.tid) (fun x => x.taken = true ∧ x.state = .queued ∧ x.record = record ∧ x.kdone = 0) ∧
      (s.refuseRemote c record t.tenant = 0 →
        after (.remoteJobArrival c record t.tid t.tenant) fun x => x.taken = true ∧ x.state = .queued ∧ x.record = record)) ∧
    (s.clocked c = true → j.taken = true → j.state = .queued → (∀ n, n < 32 → n ≠ e → ((s.cluster c).job n).taken = false) →
      after (.kstepComplete c) fun x => x.state = .running ∧ x.kdone = j.kdone) ∧
    (s.clocked c = true → j.taken = true → j.state = .running → j.kdone < j.kc → (∀ n, n < 32 → n ≠ e → ((s.cluster c).job n).taken = false) →
      (s.cluster c).kstepCode j = 0 → smapMap {} (s.cluster c).jobs (fun _ j => j.aged s.clk) = (s.cluster c).jobs →
      after (.jobKstep c) fun x => x.state = .running ∧ x.kdone = j.kdone + 1) ∧
    (s.clocked c = true → j.taken = true → j.state = .running → j.kdone = j.kc → (j.cmpl = 0 ∨ j.mma = true) →
      (j.mma = true → ∀ t ∈ s.tasks, t.tid = j.tid → t.saved = none) →
      after (.jobCompletion c (BitVec.ofNat 5 e)) fun x => x.state = .done ∧ x.code = 0 ∧ x.flg = j.flg) ∧
    (s.clocked c = true → j.taken = true → j.state = .queued → j.since + 4096 ≤ s.clk → s.clk < j.since + 8192 → j.epri < 3 →
      after (.jobPriorityAgeing c (BitVec.ofNat 5 e)) fun x => x.epri = j.epri + 1 ∧ x.since = j.since + 4096) ∧
    (∀ t, s.tasks.find? (fun t => t.halted && t.cluster == c && j.touches t) = some t → j.kdone < j.kc → j.state ≠ .held →
      after (.jobHold c (BitVec.ofNat 5 e)) fun x => x.state = .held ∧ x.holder = some t.tid ∧ x.kdone = j.kdone) ∧
    (∀ tid, j.state = .held → j.holder = some tid → s.findTask tid = none →
      after (.jobCancel c (BitVec.ofNat 5 e)) fun x => x.state = .faulted ∧ x.code = 9) ∧
    (∀ h t, (s.jobStatus h).2 = true → s.findTask t.tid = some t → t.cstate = .waiting → t.wait = .retry →
      ∃ u, exec (.jobQuery t.tid h) s = .next u ∧ (u.findTask t.tid).map (·.cstate) = some .running ∧ u.clusters = s.clusters ∧ SameMemory s u)

/-- R44 to R46, R207, R223, R224: the result of one MMA, for every pair of formats that R44 allows: the group size and the accumulator
format; element (m, n) of the 32 × 32 block D is the old element, or 0 under ACC0, plus two groups of products of row m of A and row n of B,
where the narrower operand uses the columns of PART. A group of floats is one step of R45, with the scale of its block in each block
element; a group of integers, whose signedness SA and SB select, is clamped to 32 bits and sets SAT where that changes it. A group whose B
elements are zero codes is skipped where no has-special bit covers it. The flags of all elements are merged, and D's has-special bits are
those of its new elements. -/
def Obligations.BlockProduct : Prop :=
  ∀ (a b d0 d1 : Tile) (cover : Nat → Nat → Bool) (ctl : Word) (acc0 : Bool) (g : Nat),
    let half (f : Fmt) : Bool := f == .fp16 || f == .bf16
    let eight (f : Fmt) : Bool := f == .e4m3 || f == .e5m2
    let block (f : Fmt) : Bool := f == .mxfp4 || f == .ob4
    let int8 (f : Fmt) : Bool := f == .i8 || f == .n8
    let int4 (f : Fmt) : Bool := f == .i4 || f == .n4
    let floats (f : Fmt) : Bool := half f || eight f || block f
    let size : Option Nat :=
      if floats a.tag && floats b.tag then
        (if half a.tag || half b.tag then some 16 else if eight a.tag || eight b.tag then some 32 else some 64)
      else if (int8 a.tag || int4 a.tag) && (int8 b.tag || int4 b.tag) then (if int4 a.tag && int4 b.tag then some 64 else some 32)
      else none
    let fl := floats a.tag
    let wa := fmtBits a.tag
    let wb := fmtBits b.tag
    let part := (ctl.extractLsb' 8 3).toNat
    let ca := if wa < wb then part * (2 * g) else 0
    let cb := if wb < wa then part * (2 * g) else 0
    let old (m n : Nat) : Nat := if acc0 then 0 else elemAt ((if n < 16 then d0 else d1).row m) 32 (n % 16)
    let clamp (x : Int) : Int := min (2 ^ 31 - 1) (max (-2 ^ 31) x)
    let int (x : Tile) (unsigned : Bool) (i j : Nat) : Int := if unsigned then x.elem i j else Int.bmod (x.elem i j) (2 ^ fmtBits x.tag)
    let num (x : Tile) (i j : Nat) : FNum := numOf x.tag (x.scale i (j / 32)) (x.elem i j)
    let skipped (n q : Nat) : Bool :=
      a.special == 0 && !cover n (cb + q * g) && (List.range g).all fun j => b.elem n (cb + q * g + j) == 0
    let group (m n q acc : Nat) : Nat × BitVec 6 :=
      if skipped n q then (acc, 0)
      else if fl then groupStep acc ((List.range g).map fun j => (num a m (ca + q * g + j), num b n (cb + q * g + j)))
      else
        let x := Int.bmod acc (2 ^ 32) + ((List.range g).map fun j =>
          int a (ctl.getLsbD 0) m (ca + q * g + j) * int b (ctl.getLsbD 1) n (cb + q * g + j)).foldl (· + ·) 0
        ((clamp x % 2 ^ 32).toNat, if clamp x = x then 0 else 32)
    let cell (m n : Nat) : Nat × BitVec 6 :=
      let x := group m n 0 (old m n)
      let y := group m n 1 x.1
      (y.1, x.2 ||| y.2)
    groupSize a.tag b.tag = size ∧
    (size = some g →
      let r := mmaCompute a b d0 d1 cover ctl acc0 g
      let out (n : Nat) : Tile := if n < 16 then r.1 else r.2.1
      let acc : Fmt := if fl then .fp32 else .i32
      (∀ m n, m < 32 → n < 32 → elemAt ((out n).row m) 32 (n % 16) = (cell m n).1 % 2 ^ 32) ∧
      r.2.2 = (List.range 32).foldl (fun f m => (List.range 32).foldl (fun f n => f ||| (cell m n).2) f) 0 ∧
      ∀ n, n = 0 ∨ n = 16 → (out n).tag = acc ∧
        ∀ m, m < 32 → (out n).special.getLsbD m = (fl && (List.range 16).any fun j => isSpecial .fp32 0 (elemAt ((out n).row m) 32 j)))

/-! ### Tasks and contexts -/

/-- R233, R248, R251, R360: SPAWN of a legal record that the issuer may give, on a core with room that a message may go to, delivers the new TID and adds one task with
it, zero registers but g1 to g3 and g30, the issuer's address space (its reserved bits 0, R5, R319) and vector, and SEED by R38; TID and TID.loc deliver the task's
number and place. Which free slot is taken is the model's free choice. -/
def Sys2Proof.Claims.SpawnCreatesTask : Prop :=
  ∀ (o : Ops) (s : State), Canonical s → o.x.pd = false →
    (∀ a v p, s.srcA o = .ok a → s.load {} a 64 64 = .ok v → s.paddock s.task.tenant = some p →
      let r := spawnRecord (BitVec.ofNat 512 v)
      let core := r.target s.task.core
      (s.task.sup = true ∨ (r.twin = 0 ∧ r.sup = false)) → s.recordLegal r s.task.tenant = true → s.hasRoom core = true →
      s.route s.task.tenant s.task.die (core / 2304) = true →
      ∃ t u, exec (.spawn o) s = .next t ∧ u ∈ t.others ∧ u.tid = p.cfg.tenant ++ p.nextTid ∧ u.core = core ∧ u.pc = r.pc ∧
        u.rd 1 = r.args.getD 0 0 ∧ u.rd 2 = r.args.getD 1 0 ∧ u.rd 3 = r.args.getD 2 0 ∧ u.rd 30 = r.sp ∧
        (∀ n, n ≠ 1 → n ≠ 2 → n ≠ 3 → n ≠ 30 → u.rd n = 0) ∧ u.aspace = s.task.aspace &&& 0xFFF0007FFFFFF001 ∧ u.tvec = s.task.tvec &&& ~~~(2 : Word) ∧ u.ctxa = r.ctxa ∧
        u.twin = r.twin &&& 0xBFBFBFBFBFBFBFBF ∧
        u.stat = (if r.sup then 1 else 0) ∧ u.seed = 0x9E3779B97F4A7C15 ^^^ u.tid.setWidth 64 ∧ (u.cstate = .running ∨ u.cstate = .ready) ∧
        t.task.rd o.d = (if o.d = 0 then 0 else u.tid.setWidth 64) ∧ Advanced o s t ∧
        ((s.freeSlot core).isSome → t.others = s.others ++ [u] ∧ SameMemory s t)) ∧
    (o.x.pa = false → o.x.pb = false → o.x.pc = false →
      Delivers (.tid o) o s s (s.task.tid.setWidth 64) 0 false ∧
      Delivers (.tidLoc o) o s s (BitVec.ofNat 64 (4 * s.task.core + s.task.slot)) 0 false)

/-- R241, R246, R249: EXIT, where no leave of it has to wait (R168, R347), ends the task and releases what it holds: its halters, its
mailbox bindings and its memberships; EXIT.dump of a supervisor moves the context to dumped with kind 16, and is a privilege trap of another task. -/
def Sys2Proof.Claims.ExitReleases : Prop :=
  ∀ (o : Ops) (s : State), s.task.cstate = .running → (∀ u ∈ s.others, u.tid ≠ s.task.tid) →
    (s.delivering s.task.tid = false → s.mayLeave s.task = true →
      ∃ t, exec (.exit o) s = .next t ∧ t.task = {} ∧ (∀ u ∈ t.others, u.tid ≠ s.task.tid) ∧ (∀ h ∈ t.halters, h.tid ≠ s.task.tid) ∧
        (∀ m ∈ t.mailboxes, m.tid ≠ s.task.tid) ∧ (s.task.groups = [] → SameMemory s t)) ∧
    (s.task.sup = true → ∃ t d, exec (.exitDump o) s = .next t ∧ t.task.cstate = .dumped ∧ t.task.dump = some d ∧ d.ecause = 16 ∧
      d.epc = s.task.pc ∧ t.task.pc = s.task.pc ∧ t.task.g = s.task.g ∧ SameMemory s t) ∧
    (s.task.sup = false → exec (.exitDump o) s = .next (s.trap { kind := 9, info0 := (Instr.word (.exitDump o)).setWidth 64 }))

/-- R248, R249, R251: SPAWN, EXIT and TID. -/
def Obligations.TaskCreationAndExit : Prop :=
  Sys2Proof.Claims.SpawnCreatesTask ∧ Sys2Proof.Claims.ExitReleases

/-- R237, R250: YIELD with 0 completes at once where no other task of its core runs, and else waits for them; with an amount it waits that
many clks, 65,535 at most, and completes when they have passed. YIELD.swap with an empty ready queue is YIELD with 0: it ignores a, and
takes no word of a port that a names (DEDUCED, assumption 38). With contexts in the ready queue it swaps (YieldSwapTurns). -/
def Sys2Proof.Claims.YieldWaits : Prop :=
  ∀ (o : Ops) (s : State), o.x.pb = false → o.x.pc = false → o.x.pd = false → Canonical s →
    let completes (i : Instr) (q : State → Prop) : Prop := ∃ t, exec i s = .next t ∧ Advanced o s t ∧
      t.task = { s.task with pc := t.task.pc, ports := t.task.ports, wait := .none } ∧ OnlyTask s t ∧ q t
    ((∀ u ∈ s.others, u.cstate = .running → u.core ≠ s.task.core) → s.task.wait = .none →
      (s.srcA o = .ok 0 → completes (.yield o) fun t => PortsTaken o false s t) ∧
      ((s.core s.task.core).ready = [] → completes (.yieldSwap o) fun t => ∀ q, t.task.port q = s.task.port q)) ∧
    (∀ n, s.task.wait = .none → s.srcA o = .ok n → n ≠ 0 →
      exec (.yield o) s = .next (s.stall (.count (s.clk + min n.toNat 65535)))) ∧
    (∀ u, s.task.wait = .count u → u ≤ s.clk → completes (.yield o) fun t => PortsTaken o false s t) ∧
    (∀ u, s.task.wait = .count u → s.clk < u → exec (.yield o) s = .next (s.stall (.count u)))

/-- Nothing of a task is outstanding that a save waits for: its streams are at the core with no note to answer, no job of it is past
its last k-step (R193, R224, R243), its area can be written now (R98, R168, R360) and no stop record waits (R369). -/
def Sys2Proof.Claims.NothingOut (s : State) (t : Task) : Prop :=
  (∀ n, (t.stream n).station = none ∧ (t.stream n).pend = []) ∧ (∀ e, e < 32 → ((s.cluster t.cluster).job e).due t = false) ∧
  s.areaWaits t = false ∧ t.stopRec = none

/-- R236, R237, R250: YIELD.swap with contexts in the ready queue completes, saves its task to the tail of the queue as ready, with its
registers, its streams and its tiles, and lets the head of the queue take a free slot, with the registers, the tiles and the PARKED state of
its area. -/
def Sys2Proof.Claims.YieldSwapTurns : Prop :=
  ∀ (o : Ops) (s : State) (x : Task) (rest : List Tid) (n : Nat) (tiles : List (Nat × Tile)), Canonical s →
    let t := s.task
    let core := t.core
    let s1 := ((s.advance o).haltNow).saveTask t.tid .ready core
    let s2 := s1.setCore core { s1.core core with ready := rest ++ [t.tid] }
    t.cstate = .running → t.saved = none → t.tile = none → t.dataErr = none → Sys2Proof.Claims.NothingOut s t →
    (s.core core).ready = x.tid :: rest → x.tid ≠ t.tid → (∀ u ∈ s.others, u.tid ≠ t.tid) → (∀ u ∈ s.others, u.tid = x.tid → u = x) → x ∈ s.others →
    x.cstate = .ready → x.saved = some tiles → x.oldCore = none → s1.emptySlot core = some n →
    s2.areaWaits x = false → (s2.readArea x).ok = true →
    ∃ u y z, exec (.yieldSwap o) s = .next u ∧ (u.core core).ready = rest ++ [t.tid] ∧
      u.findTask t.tid = some y ∧ y.cstate = .ready ∧ y.pc = t.pc + BitVec.ofNat 64 o.len.bytes ∧ y.g = t.g ∧ y.v = t.v ∧ y.p = t.p ∧
      y.stat = t.stat ∧ y.fsr = t.fsr ∧ y.wait = .none ∧ y.saved = some (s.snapTiles t) ∧ y.target = core ∧
      u.findTask x.tid = some z ∧ z.cstate = (if (s2.readArea x).word2.getLsbD 19 then .parked else .running) ∧ z.core = core ∧ z.slot = n ∧
      z.pc = x.pc ∧ z.g = x.g ∧ z.stat = x.stat ∧ (∀ m ∈ s.others, m.tid ≠ x.tid → ∃ k ∈ u.others, k = { m with wait := k.wait })

/-- R255: WFE of a word that differs from b delivers 0; of an equal one it arms its monitor and waits; it delivers 1 after a write to the
line and 2 after 65,536 clks without one. -/
def Sys2Proof.Claims.WaitForEvent : Prop :=
  ∀ (o : Ops) (s : State), Canonical s →
    (∀ va y pa e, s.task.wait = .none → s.srcA o = .ok va → s.srcB o = .ok y → va.toNat % 8 = 0 →
      s.access { r := true, home := true } va = .ok (.phys pa e) → s.notHaltered (.phys pa e) = .ok () →
      s.poisoned pa 8 = false →
      (BitVec.ofNat 64 (s.mem.read pa 8) ≠ y → Delivers (.wfe o) o s (s.acquire o) 0 0 (acquires o)) ∧
      (BitVec.ofNat 64 (s.mem.read pa 8) = y → DestBound o s → exec (.wfe o) s = .next (s.stall (.wfe (pa / 64) s.clk false 0)))) ∧
    (∀ l c, s.task.wait = .wfe l c true 0 → Delivers (.wfe o) o s (s.acquire o) 1 0 (acquires o)) ∧
    (∀ l c, s.task.wait = .wfe l c false 0 → c + 65536 ≤ s.clk → Delivers (.wfe o) o s (s.acquire o) 2 0 (acquires o))

/-- R237, R250, R255, R269, R314, R328: what ends a wait. Each of these events lets the waiting task issue again where its condition has
come, changes no other task and no memory, and leaves a task whose condition has not come as it is. -/
def Sys2Proof.Claims.WaitsEnd : Prop :=
  ∀ (s : State) (t : Task), s.findTask t.tid = some t → t.cstate = .waiting →
    let goes (i : Instr) (w : Wait) : Prop := ∃ u, exec i s = .next u ∧ u.findTask t.tid = some { t with cstate := .running, wait := w } ∧
      (∀ y, y ≠ t.tid → u.findTask y = s.findTask y) ∧ SameMemory s u
    (∀ c, t.wait = .count c → (c ≤ s.clk → goes (.yieldCountExpiry t.tid) (.count c)) ∧
      (s.clk < c → ∃ u, exec (.yieldCountExpiry t.tid) s = .next u ∧ u.findTask t.tid = some t)) ∧
    (∀ l c r, t.wait = .wfe l c true r → goes (.wfeWake t.tid) (.wfe l c true 1)) ∧
    (∀ l c r, t.wait = .wfe l c false r → c + 65536 ≤ s.clk → goes (.wfeTimeout t.tid) (.wfe l c false 2)) ∧
    (∀ l, t.wait = .ring l true → goes (.ringMonitorWake t.tid) (.ring l true)) ∧
    (∀ pa g v ph, t.wait = .counter pa g (some v) ph → goes (.counterWaitComplete t.tid) (.counter pa g (some v) ph)) ∧
    (∀ l c, s.task = t → t.wait = .mark l c → c + 65536 ≤ s.clk → t.tvec.getLsbD 0 = true → t.stat.getLsbD 1 = false →
      ∃ u, exec (.codeStoreMarkTimeout t.tid) s = .next u ∧ u.task.ecause = 0x070A ∧ u.task.einfo1 = BitVec.ofNat 64 (64 * l) ∧
        u.task.pc = t.tvec &&& ~~~(3 : Word) ∧ SameMemory s u)

/-- R236, R237, R250, R255: YIELD, YIELD.swap, WFE, and what ends a wait. -/
def Obligations.WaitingTasks : Prop :=
  Sys2Proof.Claims.YieldWaits ∧ Sys2Proof.Claims.YieldSwapTurns ∧ Sys2Proof.Claims.WaitForEvent ∧ Sys2Proof.Claims.WaitsEnd

/-- R234, R236, R239, R242 to R245, R390: a halt stops a task at its boundary and drops its stalled instruction; a data error that is due
there comes first; the save makes a halted task
pre-empted in the state it had, and holds the words that come for its rank; a pre-empted task is restored into a free slot of a core of
its paddock with the tiles of its area, and runs on, or is parked where the header says so; the head of a ready queue takes a free slot.
The context area is written where the hardware reaches it (DESIGN CHOICE, assumption 15). -/
def Sys2Proof.Claims.ContextsMove : Prop :=
  ∀ (s : State) (t : Task), Canonical s → s.findTask t.tid = some t → (∀ u ∈ s.others, u.tid = t.tid → u = t) →
    let tilesIn (u : State) (x : Task) (tiles : List (Nat × Tile)) : Prop := ∀ j p, j < 8 → x.window j = some p →
      (∀ i, i < 8 → i ≠ j → x.window i ≠ some p) → u.tileAt (x.core / 8) p = ((tiles.find? (·.1 == j)).map (·.2)).getD {}
    (s.task = t → t.cstate = .running → t.tile = none → t.dataErr = none →
      ∃ u, exec (.preemptRequest t.tid) s = .next u ∧ u.task.cstate = .migrating ∧ u.task.pc = t.pc ∧ u.task.g = t.g ∧ u.task.stat = t.stat ∧
        SameMemory s u) ∧
    (∀ va pc pa, s.task = t → t.cstate = .running → t.tile = none → t.dataErr = some (va, pc, pa) →
      ∃ u, exec (.preemptRequest t.tid) s = .next u ∧ u.task.cstate = .dumped ∧ u.task.ecause = 0x8E ∧ u.task.einfo0 = pc ∧
        u.task.einfo1 = BitVec.ofNat 64 pa ∧ u.task.pc = t.pc ∧ u.task.g = t.g ∧ SameMemory s u) ∧
    (t.cstate = .migrating → t.saved = none → Sys2Proof.Claims.NothingOut s t →
      ∃ u x, exec (.contextSave t.tid) s = .next u ∧ u.findTask t.tid = some x ∧ x.cstate = .preempted ∧ x.pc = t.pc ∧ x.g = t.g ∧ x.v = t.v ∧
        x.p = t.p ∧ x.stat = t.stat ∧ x.fsr = t.fsr ∧ x.saved = some (s.snapTiles t) ∧ x.oldCore = some t.core ∧
        ∀ w ∈ (u.core t.core).inbound, t.takes w = false) ∧
    (∀ p core n tiles, t.cstate = .preempted → t.saved = some tiles → t.oldCore = none → s.paddock t.tenant = some p →
      p.hasCore core = true → s.route t.tenant t.die (core / 2304) = true → s.areaWaits t core = false →
      let a := s.readArea t core
      a.ok = true → s.freeSlot core = some n →
      ∃ u x, exec (.contextRestore t.tid core) s = .next u ∧ u.findTask t.tid = some x ∧
        x.cstate = (if a.word2.getLsbD 19 then .parked else .running) ∧ x.core = core ∧ x.slot = n ∧
        x.twin = a.twin &&& 0xBFBFBFBFBFBFBFBF ∧ tilesIn u x tiles ∧
        x.pc = t.pc ∧ x.g = t.g ∧ x.stat = t.stat ∧ SameMemory s u) ∧
    (∀ core n tiles, t.cstate = .ready → t.saved = some tiles → t.oldCore = none → (s.core core).ready = [t.tid] → s.emptySlot core = some n →
      let s0 := s.setCore core { s.core core with ready := [] }
      let a := s0.readArea t
      a.ok = true → s0.areaWaits t = false →
      ∃ u x, exec (.readyQueueTake core) s = .next u ∧ u.findTask t.tid = some x ∧
        x.cstate = (if a.word2.getLsbD 19 then .parked else .running) ∧ x.core = core ∧ x.slot = n ∧
        x.twin = a.twin &&& 0xBFBFBFBFBFBFBFBF ∧ tilesIn u x tiles ∧ x.pc = t.pc ∧ x.g = t.g ∧ SameMemory s u) ∧
    (∀ k, t.inSlot = true → t.saved = none → t.oldCore = some k → (s.core k).held = [] →
      ∃ u x, exec (.migrationForward t.tid) s = .next u ∧ u.findTask t.tid = some x ∧ x = { t with oldCore := none } ∧ SameMemory s u)

/-- R234, R256: MIGR of a supervisor: an address that is not a multiple of 64 is an illegal operand, a context area that no context of the
tenant has gives 1; a ready or pre-empted context with b = all ones is left pre-empted with 0, and its header says so; a pre-empted
context with b a core that has a free slot is restored there with 0; a user task takes the privilege trap. -/
def Sys2Proof.Claims.MigrateContext : Prop :=
  ∀ (o : Ops) (s : State), Canonical s →
    (s.task.sup = false → exec (.migr o) s = .next (s.trap { kind := 9, info0 := (Instr.word (.migr o)).setWidth 64 })) ∧
    (s.task.sup = true → ∀ a b, s.srcA o = .ok a → s.srcB o = .ok b →
      (a.toNat % 64 ≠ 0 → Sys2Proof.Claims.IllegalOperand (.migr o) s) ∧
      (a.toNat % 64 = 0 → (b = BitVec.allOnes 64 ∨ s.ownCore s.task.tenant b.toNat = true) → s.areaAt a s.task = false →
        (∀ u ∈ s.others, s.areaAt a u = true → u.tenant = s.task.tenant → u.cstate = .free) → Delivers (.migr o) o s s 1 0 false) ∧
      ∀ t, a.toNat % 64 = 0 → s.areaAt a s.task = false → s.task.tid ≠ t.tid → t.wait = .none → s.headerState t = t.cstate.code →
        s.others.find? (fun t => s.areaAt a t && t.tenant == s.task.tenant && t.cstate != .free) = some t →
        (∀ u ∈ s.tasks, u.tid = t.tid → u = t) → s.linked (t.core / 2304) = true → Sys2Proof.Claims.NothingOut s t → t.dataErr = none → o.x.pd = false →
        (b = BitVec.allOnes 64 → (t.cstate = .ready ∨ t.cstate = .preempted) →
          ∃ u x, exec (.migr o) s = .next u ∧ u.findTask t.tid = some x ∧ x = { t with cstate := .preempted } ∧ Advanced o s u ∧
            (o.d ≠ 0 → u.task.rd o.d = 0) ∧
            (∀ c, (∀ pa, s.headerPa t = some pa → c < pa + 16 ∨ pa + 24 ≤ c) → u.mem.byte c = s.mem.byte c) ∧
            (∀ c, u.scratch.byte c = s.scratch.byte c) ∧
            (∀ pa, t.cstate = .ready → t.saved.isSome = true → s.headerPa t = some pa → u.mem.read (pa + 16) 8 / 2 ^ 16 % 8 = 5)) ∧
        (∀ n, t.cstate = .preempted → t.saved.isSome = true → t.oldCore = none → s.ownCore s.task.tenant b.toNat = true →
          restoreTarget t (s.readArea t) b.toNat = b.toNat → s.linked (b.toNat / 2304) = true → s.areaWaits t b.toNat = false →
          (s.readArea t b.toNat).ok = true → (s.readArea t b.toNat).word2.getLsbD 19 = false → s.freeSlot b.toNat = some n →
          ∃ u x, exec (.migr o) s = .next u ∧ u.findTask t.tid = some x ∧ x.cstate = .running ∧ x.core = b.toNat ∧ x.slot = n ∧ x.pc = t.pc ∧
            x.g = t.g ∧ Advanced o s u ∧ (o.d ≠ 0 → u.task.rd o.d = 0) ∧ SameMemory s u))

/-- R242 to R245, R256: halt, save, restore, and MIGR. -/
def Obligations.ContextMoves : Prop :=
  Sys2Proof.Claims.ContextsMove ∧ Sys2Proof.Claims.MigrateContext

/-- R239 to R241, R246, R390: a data error is imprecise and fatal: its destination holds no defined value, the registers of the trap are
written, and the task's context moves to dumped with kind 14 and IMP set. The write of a dump, once its context has settled, the slot in
turn is free, its memberships can be left and its record finds room, leaves record and area image in the slot, posts the type 6 record and releases the context. -/
def Obligations.FatalErrorsDump : Prop :=
  ∀ (s : State) (t : Task), t.tid ≠ 0 → s.findTask t.tid = some t → (∀ u ∈ s.others, u.tid = t.tid → u = t) →
    (∀ dest pc pa, t.cstate ≠ .free → t.cstate ≠ .dumped →
      ∃ u x d, exec (.dataError t.tid dest pc pa) s = .next u ∧ u.findTask t.tid = some x ∧ x.cstate = .dumped ∧ x.dump = some d ∧
        d.ecause = 0x8E ∧ d.epc = t.pc &&& ~~~(3 : Word) ∧ d.info0 = pc ∧ d.info1 = pa ∧ x.pc = t.pc ∧ x.estat = t.stat ∧ x.epc = d.epc ∧
        x.ecause = 0x8E ∧ x.einfo0 = pc ∧ x.einfo1 = pa ∧ (∀ n, dest ≠ .reg n → x.rd n = t.rd n) ∧ SameMemory s u) ∧
    (∀ p rest, Canonical s → s.paddock t.tenant = some p → p.dumpQueue = t.tid :: rest → s.dumpFree p p.dumpSlot = true →
      s.delivering t.tid = false → s.mayLeave t = true →
      let s0 := s.settle t.tid
      let s1 := s0.modTask t.tid fun t => { t with streams := t.streams.map Stream.discard }
      s0.settled t.tid = true → s0.postRoom t.tenant = true →
      ∀ t1 q pas, s1.findTask t.tid = some t1 → s1.paddock t.tenant = some q → s1.dumpPas q t1.core q.dumpSlot = some pas →
      ∃ u, exec (.dumpWrite t.tenant) s = .next u ∧ u.findTask t.tid = none ∧
        (∃ q' x, u.paddock t.tenant = some q' ∧ q'.dumpQueue = rest ∧ (q'.vf q.ownVf).buffer = (q.vf q.ownVf).buffer ++ [x] ∧
          x.extractLsb' 0 8 = 6 ∧ x.extractLsb' 64 48 = t.tid) ∧
        (t1.groups = [] → (∀ r ∈ pas, r % 64 = 0) →
          (∀ k r d, pas[k]? = some r → (∀ j, j ≠ k → pas[j]? ≠ some r) → t1.dump = some d →
            u.mem.read r 64 = t1.dumpImage d / 2 ^ (512 * k) % 2 ^ 512) ∧
          ∀ a, (∀ r ∈ pas, a < r ∨ r + 64 ≤ a) → u.mem.byte a = s1.mem.byte a))

/-! ### Status registers -/

/-- R4, R5, R8, R39, R147, R235, R254, R284, R368, R382: CSRR delivers a register that the task may read; CSRW writes one that it may
write, with the reserved bits ignored and FSR's bits cleared by 1, and leaves KCUR and SGEN as they are; a number without a register is
an illegal operand, and a register of the supervisor, or a write of TID or of a feature register, a privilege trap (which numbers trap so
is DEDUCED, assumption 51). -/
def Obligations.StatusRegisters : Prop :=
  ∀ (o : Ops) (s : State), Canonical s → o.x.pb = false → o.x.pc = false →
    let n : BitVec 12 := o.imm.setWidth 12
    let privilege (i : Instr) : Prop := exec i s = .next (s.trap { kind := 9, info0 := i.word.setWidth 64 })
    (regOf n = none → IllegalOperand (.csrr o) s ∧ IllegalOperand (.csrw o) s) ∧
    (∀ r, regOf n = some r → o.x.pa = false →
      ((r.supRead = true ∧ s.task.sup = false) → privilege (.csrr o)) ∧
      ((r.supRead = false ∨ s.task.sup = true) → r ≠ .jsr → Delivers (.csrr o) o s s (s.regValue r) 0 false)) ∧
    (n = 0x001 → privilege (.csrw o)) ∧ (n = 0x1C0 → privilege (.csrw o)) ∧
    (n = 0x003 → s.task.sup = false → privilege (.csrw o)) ∧ (n = 0x100 → s.task.sup = false → privilege (.csrw o)) ∧
    ∀ x, s.srcA o = .ok x →
      let sets (k : BitVec 12) (needs : Bool) (q : Task → Task) : Prop := n = k → (needs = true → s.task.sup = true) →
        ∃ t, exec (.csrw o) s = .next t ∧
          t.task = { (q s.task) with pc := s.task.pc + BitVec.ofNat 64 o.len.bytes, wait := .none, ports := t.task.ports } ∧
          PortsTaken o false s t ∧ CoresAfter false s t ∧ OnlyTask s t
      sets 0x002 true (fun t => { t with stat := x &&& 3 }) ∧ sets 0x003 true (fun t => { t with epc := x &&& ~~~(3 : Word) }) ∧
      sets 0x004 true (fun t => { t with ecause := x &&& 0xFFBF }) ∧ sets 0x005 true (fun t => { t with einfo0 := x }) ∧
      sets 0x006 true (fun t => { t with einfo1 := x }) ∧ sets 0x007 true (fun t => { t with einfo2 := x }) ∧
      sets 0x008 true (fun t => { t with estat := x &&& 3 }) ∧ sets 0x009 true (fun t => { t with tvec := x &&& ~~~(2 : Word) }) ∧
      sets 0x00A true (fun t => { t with ctxa := x }) ∧ sets 0x010 false (fun t => { t with fsr := t.fsr &&& ~~~x }) ∧
      sets 0x040 true (fun t => { t with twin := x &&& 0xBFBFBFBFBFBFBFBF }) ∧
      sets 0x100 true (fun t => { t with aspace := x &&& 0xFFF0007FFFFFF001 }) ∧ sets 0x090 false (fun t => t) ∧
      sets 0x022 false (fun t => t) ∧ sets 0x011 false (fun t => { t with seed := if x = 0 then 0x9E3779B97F4A7C15 else x })

/-- R40, R137, R140, R141, R143, R229, R254, R259, R260, R319, R330, R335, R369, R371, R372: the register writes as events of a running
supervisor task: what each changes. -/
def Sys2Proof.Claims.RegisterWriteEvents : Prop :=
  ∀ (s : State) (v : Word), Canonical s → s.task.cstate = .running → s.task.sup = true →
    let core := s.task.core
    let cl := s.task.cluster
    let after (i : Instr) (q : State → Prop) : Prop := ∃ u, exec i s = .next u ∧ q u ∧ u.task.g = s.task.g ∧ u.task.pc = s.task.pc ∧
      (∀ a, u.mem.byte a = s.mem.byte a)
    let scratchKept (u : State) : Prop := ∀ a, u.scratch.byte a = s.scratch.byte a
    (lsplitLegal (s.cluster cl).vpool core v = true →
      after (.lsplitWrite v) fun u => (u.core core).lsplit = v &&& 0x1F1F ∧
        (∀ j x, j < 16 → x < 16384 → u.scratch.byte (262144 * core + 16384 * j + x) =
          if lsplitRole (s.core core).lsplit j = lsplitRole (v &&& 0x1F1F) j then s.scratch.byte (262144 * core + 16384 * j + x) else 0) ∧
        (∀ a, a / 262144 ≠ core → u.scratch.byte a = s.scratch.byte a) ∧
        ∀ x, (s.core core).loses (v &&& 0x1F1F) (s.line core x) = true → (u.line core x).present = false) ∧
    ((v.extractLsb' 0 4).toNat ≤ 8 → (∀ i, i < 8 → v.getLsbD (8 + i) = false) →
      after (.vpoolWrite v) fun u => (u.cluster cl).vpool = v &&& 0xFF0F ∧ scratchKept u) ∧
    (∀ n : BitVec 3, v.getLsbD 63 = false →
      after (.stashEntryWrite n v) fun u => pick (u.core core).stash n.toNat = v &&& 0xFFFCFFFFFFFFF000 ∧ scratchKept u) ∧
    after (.fsrAccess (some v)) (fun u => u.task.fsr = s.task.fsr &&& ~~~v ∧ scratchKept u) ∧
    after (.fsrAccess none) (· = s) ∧
    ((∀ c ∈ s.clusters, ∀ j ∈ c.2.live, ¬ (j.mma = true ∧ j.tid = s.task.tid)) →
      after (.jsrAccess (some v)) fun u => u.task.jsr = s.task.jsr &&& ~~~v ∧ scratchKept u) ∧
    after (.aspaceWrite v) (fun u => u.task.aspace = v &&& 0xFFF0007FFFFFF001 ∧ scratchKept u) ∧
    (∀ n : BitVec 2, s.sending n = false → after (.pbWrite n v) fun u => (u.task.port n).pb = v &&& 0x830FFFFF00000000 ∧
      (u.task.port n).queue = (s.task.port n).queue ∧ (∀ m, m ≠ n → u.task.port m = s.task.port m) ∧ scratchKept u) ∧
    ((∀ n, (s.task.port n).queue = []) → (∀ w ∈ (s.core core).inbound ++ (s.core core).held, s.task.takes w = false) →
      after (.rankWrite v) fun u => u.task.rank = v &&& 0x80000000000FFFFF ∧ scratchKept u) ∧
    (v.getLsbD 63 = true → rankPkg v = 0xFFF → ((s.core core).ranks.filter fun e => rankOf e != rankOf v).length < 1024 →
      after (.rtnew v) fun u => (u.core core).ranks = ((s.core core).ranks.filter fun e => rankOf e != rankOf v) ++ [v &&& 0x8FFFFFFFFFFFFFFF] ∧
        scratchKept u) ∧
    (∀ k, k < 16 → (∀ i, i < k → (pick (s.cluster cl).capt i).getLsbD 63 = true) → (pick (s.cluster cl).capt k).getLsbD 63 = false →
      after (.capnew v) fun u => pick (u.cluster cl).capt k = (v &&& 0x8FFFFFFFFFFFFFFF) ||| 0x8000000000000000 ∧
        (∀ i, i ≠ k → pick (u.cluster cl).capt i = pick (s.cluster cl).capt i) ∧ scratchKept u) ∧
    (v.extractLsb' 48 16 = 0 → v.extractLsb' 36 12 = s.task.tenant →
      after (.mkclr v) fun u => (∀ m, m ∈ u.marks ↔ m ∈ s.marks ∧ m.tid ≠ some (v.setWidth 48)) ∧ scratchKept u) ∧
    (∀ p r, s.paddock s.task.tenant = some p → p.cfg.tenant = s.task.tenant →
      (p.vf (v.extractLsb' 32 6).toNat).paging.find? (·.seq == v.setWidth 32) = some r → r.tids = [] →
      after (.pfres v) fun u => ∃ q, u.paddock s.task.tenant = some q ∧
        ∀ x ∈ (q.vf (v.extractLsb' 32 6).toNat).paging, x.seq ≠ v.setWidth 32) ∧
    (s.findTask (v.setWidth 48) = none → after (.dres v) (· = s)) ∧
    (v.getLsbD 63 = false → after (.prselWrite v) fun u => (u.core core).prsel = v &&& 0xFF ∧ (u.core core).profile = (s.core core).profile ∧ scratchKept u) ∧
    (v.getLsbD 63 = true → after (.prselWrite v) fun u => (u.core core).profile = []) ∧
    (∀ n : BitVec 2, v.getLsbD 3 = false → after (.moncfgWrite n v) fun u =>
      ((u.cluster cl).monitors[n.toNat]'(n.isLt)).cfg = v &&& 0x800000FFFFFFFFFF ∧ ((u.cluster cl).monitors[n.toNat]'(n.isLt)).count = 0 ∧ scratchKept u) ∧
    after (.registerWrite 0x009 v) (fun u => u.task.tvec = v &&& ~~~(2 : Word) ∧ scratchKept u)

/-- R369: a write of DRES by a supervisor restores a stopped task of its tenant into a free slot of the core that its header names. -/
def Sys2Proof.Claims.DebugRestore : Prop :=
  ∀ (s : State) (v : Word) (t : Task) (p : Paddock) (n : Nat), Canonical s → s.task.cstate = .running → s.task.sup = true →
    s.findTask (v.setWidth 48) = some t → t.tid ≠ s.task.tid → t.cstate = .preempted → t.tenant = s.task.tenant → t.saved.isSome = true →
    s.linked (t.target / 2304) = true → t.oldCore = none → s.paddock t.tenant = some p → s.areaWaits t t.target = false →
    (s.readArea t t.target).ok = true → (s.readArea t t.target).word2.getLsbD 19 = false →
    (s.readArea t).word3 = BitVec.ofNat 64 t.target → p.hasCore t.target = true →
    s.freeSlot t.target = some n →
    ∃ u x, exec (.dres v) s = .next u ∧ u.findTask (v.setWidth 48) = some x ∧ x.cstate = .running ∧ x.core = t.target ∧ x.slot = n ∧ x.pc = t.pc ∧
      x.g = t.g ∧ SameMemory s u

/-- R254 and the registers' own rules: the writes of registers as events, and a restore by DRES. -/
def Obligations.RegisterWrites : Prop :=
  Sys2Proof.Claims.RegisterWriteEvents ∧ Sys2Proof.Claims.DebugRestore

/-! ### Queues and copies -/

/-- R265 to R267: MBIND binds an unbound line to a legal record and delivers a free index of the home slice; SENDM stores the 64 bytes in
one step, and at a bound mailbox they wait as its activation; it waits its turn behind an activation in delivery and the triggers that
came before; MFREE unbinds, once no activation is in delivery; the activation, where a way leads to its core (R360), places a new task with
the line in g1 to g8. -/
def Obligations.Mailboxes : Prop :=
  ∀ (o : Ops) (s : State), Canonical s →
    (∀ a b pa e v, o.x.pd = false → s.srcA o = .ok a → s.srcB o = .ok b → a.toNat % 64 = 0 → b.toNat % 64 = 0 →
      s.access { r := true, home := true } a = .ok (.phys pa e) → s.notHaltered (.phys pa e) = .ok () → s.load {} b 64 64 = .ok v →
      dirPage e = true → (spawnRecord (BitVec.ofNat 512 v)).allowed s.task.sup = true → s.recordLegal (spawnRecord (BitVec.ofNat 512 v)) s.task.tenant = true →
      (∀ m ∈ s.mailboxes, m.pa ≠ pa) → (s.freeBinding pa).isSome →
      ∃ t m, exec (.mbind o) s = .next t ∧ t.mailboxes = s.mailboxes ++ [m] ∧ m.pa = pa ∧ m.va = a ∧ m.tid = s.task.tid ∧ m.pending = [] ∧
        (∀ x ∈ s.bindings pa, x.index ≠ m.index) ∧ RegTakes o s t (m.index.setWidth 64) ∧ Advanced o s t ∧ SameMemory s t) ∧
    (∀ a pa e, s.srcA o = .ok a → a.toNat % 64 = 0 → s.access { r := true, home := true } a = .ok (.phys pa e) →
      ((∀ m, s.mailbox pa = some m → m.pending = []) →
        ∃ t, exec (.mfree o) s = .next t ∧ (∀ m, m ∈ t.mailboxes ↔ m ∈ s.mailboxes ∧ m.pa ≠ pa) ∧ Advanced o s t ∧ RegsKept s t ∧ SameMemory s t) ∧
      (∀ m, o.x.pd = false → s.mailbox pa = some m → m.pending ≠ [] → exec (.mfree o) s = .next (s.stall .retry))) ∧
    (∀ a b pa e v, s.srcA o = .ok a → s.srcB o = .ok b → a.toNat % 64 = 0 → s.load {} b 64 64 = .ok v →
      s.access { w := true, home := true } a = .ok (.phys pa e) → StoreFree s (.phys pa e) 64 →
      (s.mailFree pa (.task s.task.tid) = true →
        ∃ t, exec (.sendm o) s = .next t ∧ Stored s t (.phys pa e) 64 v ∧ Advanced o s t ∧ RegsKept s t ∧
          ∀ m ∈ s.mailboxes, m.pa = pa → ∃ m' ∈ t.mailboxes, m'.pa = pa ∧ ∃ x, m'.pending = m.pending ++ [x] ∧ x.line = BitVec.ofNat 512 v) ∧
      (o.x.pd = false → s.mailFree pa (.task s.task.tid) = false → exec (.sendm o) s = .next (s.stall (.send pa)))) ∧
    (∀ pa m x rest p, s.mailbox pa = some m → m.pending = x :: rest → s.paddock (m.tid.extractLsb' 36 12) = some p →
      let r := spawnRecord m.record
      s.hasRoom r.core = true → s.route (m.tid.extractLsb' 36 12) (s.homeDie pa) (r.core / 2304) = true →
      ∃ u t, exec (.mailboxActivation pa) s = .next u ∧ t ∈ u.others ∧ t.tid = p.cfg.tenant ++ p.nextTid ∧ t.core = r.core ∧ t.pc = r.pc ∧
        (∀ k, k < 8 → t.rd (BitVec.ofNat 5 (k + 1)) = x.line.extractLsb' (64 * k) 64) ∧ t.rd 9 = m.va ∧ t.rd 30 = r.sp ∧
        (t.cstate = .running ∨ t.cstate = .ready))

/-- R268, R269: RAWAIT of a legal ring delivers WP (prod) or RP (cons) where n slots are free, or published, and else waits for a write to
the header; RREL stores WP + n or RP + n at the header, and only there where the ring has no free-slot counter. -/
def Sys2Proof.Claims.Rings : Prop :=
  ∀ (o : Ops) (s : State) (a n : Word) (pa : Nat) (e : Word), Canonical s → s.srcA o = .ok a → s.srcB o = .ok n → a.toNat % 64 = 0 →
    s.access { r := true, w := true, home := true } a = .ok (.phys pa e) → s.notHaltered (.phys pa e) = .ok () →
    let wp := s.mem.read pa 8
    let rp := s.mem.read (pa + 8) 8
    let nslot := s.mem.read (pa + 24) 4
    let used : Int := (wp : Int) - rp
    s.poisoned pa 64 = false → (s.ringAt pa).legal = true → 1 ≤ n.toNat → n.toNat ≤ nslot → s.isCode pa = false → s.isCode (pa + 8) = false →
      (((n.toNat : Int) ≤ nslot - used → Delivers (.rawaitProd o) o s (s.acquire o) (BitVec.ofNat 64 wp) 0 (acquires o)) ∧
       ((n.toNat : Int) > nslot - used → DestBound o s → exec (.rawaitProd o) s = .next (s.stall (.ring (pa / 64) false))) ∧
       ((n.toNat : Int) ≤ used → Delivers (.rawaitCons o) o s (s.acquire o) (BitVec.ofNat 64 rp) 0 (acquires o)) ∧
       (used + n.toNat ≤ nslot → ∃ t, exec (.rrelProd o) s = .next t ∧ Stored s t (.phys pa e) 8 (wp + n.toNat) ∧ Advanced o s t ∧ RegsKept s t) ∧
       ((n.toNat : Int) ≤ used → s.mem.read (pa + 32) 8 = 0 →
          ∃ t, exec (.rrelCons o) s = .next t ∧ Stored s t (.phys (pa + 8) e) 8 (rp + n.toNat) ∧ Advanced o s t ∧ RegsKept s t))

/-- R270, R334: FAULT_RECORD_POST writes the oldest buffered record of a virtual function to the slot that WP names, with WP one greater,
while the ring has room; the record leaves the buffer. -/
def Sys2Proof.Claims.FaultRecordReachesRing : Prop :=
  ∀ (s : State) (tenant : BitVec 12) (vf : BitVec 6) (p : Paddock) (x : BitVec 512) (rest : List (BitVec 512)) (s1 : State) (pos : Nat),
    s.paddock tenant = some p → (p.vf vf.toNat).buffer = x :: rest → s.hostLinkUp = true →
    s.ringPut (p.vfWho vf.toNat) (p.vf vf.toNat).header x = some (s1, pos) → Canonical s →
    ∃ u, exec (.faultRecordPost tenant vf) s = .next u ∧ u.mem = s1.mem ∧ (∃ q, u.paddock tenant = some q ∧ ((q.vf vf.toNat).buffer = rest)) ∧
      ∀ pa q, s.agentLoc (p.vfWho vf.toNat) { r := true, w := true } (p.vf vf.toNat).header = some pa →
        s.agentLoc (p.vfWho vf.toNat) { w := true } ((s.ringAt pa).base + BitVec.ofNat 64 ((s.ringAt pa).wp % (s.ringAt pa).nslot * 64)) = some q →
        (q + 64 ≤ pa ∨ pa + 8 ≤ q) → u.mem.read q 64 = x.toNat ∧ u.mem.read pa 8 = ((s.ringAt pa).wp + 1) % 2 ^ 64 ∧
          ∀ a, (a < q ∨ q + 64 ≤ a) → (a < pa ∨ pa + 8 ≤ a) → u.mem.byte a = s.mem.byte a

/-- R268 to R270: RAWAIT, RREL and the fault queue of a virtual function. -/
def Obligations.RingsAndFaultQueues : Prop :=
  Sys2Proof.Claims.Rings ∧ Sys2Proof.Claims.FaultRecordReachesRing

/-- R157, R162, R166, R271 to R275, R307: CPY and CPYM of a legal command join the queue of the cluster's copy unit with the values that a
kick leaves unordered, which is no release of a scope that holds the unit, and change no memory; a window of one element, copied between formats of integers and floats that are no blocks,
stores the converted element at its place and only there (a store to a SINV page is written through, R146); the completion removes the command and, where it names a counter, adds the
bytes of its window; a resumed page lets the parked windows go on; a receiver of a CPYM is served whatever the others wait for, unless another
window has begun to fill the slot. The unit
goes on with a command while its island's clocks run and it holds no other command's add. -/
def Obligations.CopyCommands : Prop :=
  ∀ (o : Ops) (s : State), Canonical s →
    let cl := s.task.cluster
    (∀ a c, s.srcA o = .ok a → (s.cluster cl).copies.length < 16 →
      let joins (i : Instr) : Prop := ∃ t c', exec i s = .next t ∧ (t.cluster cl).copies = (s.cluster cl).copies ++ [c'] ∧
        c' = { c with since := s.clk, windows := c'.windows, old := c'.old, seed := s.free } ∧
        c'.windows = (if c.multi then [] else [{ rcv := 0, base := c.word 64 }]) ∧
        c'.old = (if (o.x.ord = .rel ∨ o.x.ord = .ar) ∧ o.x.sc ≠ .c then [] else (s.recent.filter (·.1 == s.task.tid)).map (·.2)) ∧
        c.desc = BitVec.ofNat 1024 ((s.readLoc (match s.access { r := true } a with | .ok l => l | _ => .scratch 0) 64) +
            2 ^ 512 * s.readLoc (match s.access { r := true } (a + 64) with | .ok l => l | _ => .scratch 0) 64) ∧
        c.tid = s.task.tid ∧ (∀ k, k ≠ cl → t.cluster k = s.cluster k) ∧ Advanced o s t ∧ RegsKept s t ∧ SameMemory s t
      (s.copyCommand a false = .ok c → joins (.cpy o) ∧ c.multi = false) ∧ (s.copyCommand a true = .ok c → joins (.cpym o) ∧ c.multi = true)) ∧
    (∀ k i c w x l, s.copyAt k i = some c → c.multi = false → c.bodyDone = false → c.window 0 = some w → w.parked = none → w.row = 0 →
      w.col = 0 → s.copyOn k i = true → c.nrow = 1 → c.ncol = 1 → c.dfmt.isBlock = false → fmtBits c.dfmt ≠ 4 →
      s.copyValue c w.base 0 0 = .ok x →
      let n := fmtBits c.dfmt / 8
      s.copyLoc c.who { w := true } w.base n = .ok l →
      (match l with | .scratch _ => True | .phys pa _ => (s.markRange c.tid c.who.die pa n).isSome) →
      ∃ u c', exec (.copyCommand k i) s = .next u ∧ Stored s u l n (c.encode x).1 ∧ u.copyAt k i = some c' ∧ c'.bodyDone = true ∧
        c'.code = c.code ∧ c'.flags = c.flags ||| (c.encode x).2 ∧ c'.window 0 = none ∧ u.task.g = s.task.g) ∧
    (∀ k i c, s.copyAt k i = some c → s.copyOn k i = true → c.bodyDone = true → c.cmpl = 0 → c.mbox = 0 →
      ∃ u, exec (.copyCompletion k i) s = .next u ∧ (u.cluster k).copies = (s.cluster k).copies.eraseIdx i ∧ SameMemory s u) ∧
    (∀ k i c pa e, s.copyAt k i = some c → s.copyOn k i = true → c.bodyDone = true → c.added = false → c.cmpl ≠ 0 → c.cmpl.toNat % 8 = 0 →
      c.mbox = 0 → c.multi = false → s.check c.who { r := true, w := true, ctr := .require } c.cmpl = .ok (.phys pa e) →
      s.mem.read pa 8 + c.windowBytes < 2 ^ 64 → (s.poke pa 8 (s.mem.read pa 8 + c.windowBytes)).parties (pa / 64 * 64) = 0 →
      ∃ u, exec (.copyCompletion k i) s = .next u ∧ u.mem.read pa 8 = s.mem.read pa 8 + c.windowBytes ∧
        (u.cluster k).copies = (s.cluster k).copies.eraseIdx i ∧ ∀ a, (a < pa ∨ pa + 8 ≤ a) → u.mem.byte a = s.mem.byte a) ∧
    (∀ k i c w, s.copyAt k i = some c → w ∈ c.windows → w.filled = true →
      ∃ u c', exec (.copyPageResume k i) s = .next u ∧ u.copyAt k i = some c' ∧ c' = { c with windows := c'.windows } ∧
        ({ w with parked := none, filled := false } : CopyWindow) ∈ c'.windows ∧ (∀ x ∈ c.windows, x.filled = false → x ∈ c'.windows) ∧
        SameMemory s u) ∧
    (∀ k i c (r : BitVec 3) g f b fl w1, s.copyAt k i = some c → c.multi = true → c.bodyDone = false → c.window r.toNat = none →
      r.toNat < c.rcv.length → c.served.contains r.toNat = false → s.copyOn k i = true →
      s.receiverRing { c with grant := none } (c.rcv.getD r.toNat 0) = .ok (g, f) → c.slotBytes ≤ g.slotb → 1 ≤ (g.nslot : Int) - ((g.wp : Int) - f) →
      s.ringTaken k i r.toNat g.pa = false →
      let base : Word := g.base + BitVec.ofNat 64 (g.wp % g.nslot * g.slotb)
      s.copyRun c { rcv := r.toNat, base := base, ring := some g.pa } (c.nrow * c.ncol) = (b, fl, w1, none) →
      ∃ u c', exec (.cpymReceiver k i r) s = .next u ∧ u.copyAt k i = some c' ∧ c'.served = c.served ++ [r.toNat] ∧
        c'.flags = c.flags ||| fl ∧ u.mem = (b.poke g.pa 8 (g.wp + 1)).mem) ∧
    (∀ t pa c0 (n : BitVec 2), s.findTask t.tid = some t → s.paddock (t.tid.extractLsb' 36 12) ≠ none →
      s.postRoom (t.tid.extractLsb' 36 12) = true → (t.stream n).markWait = some (lineOf pa.toNat, c0, false) →
      c0 + 65536 ≤ s.clk →
      ∃ u x, exec (.groomMarkWaitRecord t.tid pa 0) s = .next u ∧ u.findTask t.tid = some x ∧
        (x.stream n).markWait = some (lineOf pa.toNat, c0, true) ∧ SameMemory s u)

namespace Sys2Proof.Claims

/-! ### Counters -/

/-- Where d names a port, one word is sent from the state `b` instead of a write of a register. -/
def Sends (i : Instr) (o : Ops) (s b : State) (v : Word) : Prop :=
  o.x.pd = true → ∀ u, b.send (o.d.setWidth 2) v = .ok u → exec i s = .next ((u.take o).advance o)

/-- The 8 bytes at `pa` hold `v`, and every other byte reads as before. -/
def WordIs (s t : State) (pa v : Nat) : Prop :=
  t.mem.read pa 8 = v ∧ (∀ a, a < pa ∨ pa + 8 ≤ a → t.mem.byte a = s.mem.byte a) ∧ ∀ a, t.scratch.byte a = s.scratch.byte a

/-- The line of `pa` is no barrier record once the 8 bytes at `pa` hold `v` (R308: a record has PARTIES of 1 or more). -/
def NoRecord (s : State) (pa v : Nat) : Prop := (s.poke pa 8 v).parties (pa / 64 * 64) = 0

/-- Every task that waits for the counter at `pa` and whose target `v` meets has been told (R306, R314). -/
def WaitsMet (s t : State) (pa v : Nat) : Prop :=
  ∀ u ∈ s.others, ∀ g, u.wait = .counter pa g none false → g ≤ v →
    ∃ x ∈ t.others, x = { u with wait := .counter pa g (some (BitVec.ofNat 64 v)) false }

/-- The instruction of a supervisor is a privilege trap (kind 9) of another task. -/
def NeedsSupervisor (i : Instr) (s : State) : Prop :=
  s.task.sup = false → exec i s = .next (s.trap { kind := 9, info0 := i.word.setWidth 64 })

/-- A TLBI ends with the cached translations and the table entries of walker pools within reach that match gone, and no others; no
register and no byte changes. -/
def TlbDropped (i : Instr) (o : Ops) (s : State) (hit : TlbEntry → Prop) (table : WalkEntry → Prop) : Prop :=
  ∃ t, exec i s = .next t ∧ (∀ e, e ∈ t.tlb ↔ e ∈ s.tlb ∧ ¬ (reaches s.task.core o.x.sc e.place = true ∧ hit e)) ∧
    (∀ e, e ∈ t.walkCache ↔ e ∈ s.walkCache ∧ ¬ (reachesPool s.task.core o.x.sc e.die = true ∧ table e)) ∧
    Advanced o s t ∧ RegsKept s t ∧ SameMemory s t ∧ (∀ c, (t.core c).sgen = (s.core c).sgen) ∧
    t.task = { s.task with pc := t.task.pc, ports := t.task.ports, wait := .none }

end Sys2Proof.Claims

/-! ### Counters and barriers -/

/-- R240, R302 to R306, R312, R313, R334: CADD adds b to a counter and delivers its old value; past the top of the range it is the
counter-saturation trap (kind 15) with address, old value and addend; CADD.set of a supervisor stores b; tasks whose target the new value
meets are told. The address must be one of R312, on a line without an uncorrectable error. An agent's add does the same, and saturates with
a record of type 5 to the task's tenant, or for no task to the tenant that holds the counter's stack; it is held while the stack is in
transit (R307) or its record finds no room (R270). That an event past 2^39 ends in the fault outsideMemory is the model's choice
(DESIGN CHOICE, assumption 61). -/
def Obligations.CounterAdds : Prop :=
  (∀ (o : Ops) (s : State) (va y : Word) (pa : Nat), Canonical s → s.srcA o = .ok va → s.srcBL o = .ok y →
    s.counterLoc { w := true } va 8 = .ok pa → s.poisoned pa 8 = false →
    let old := s.mem.read pa 8
    let answers (i : Instr) (v : Nat) : Prop :=
      (o.x.pd = false → ∃ t, exec i s = .next t ∧ WordIs s t pa v ∧ WaitsMet s t pa v ∧ Sys2Proof.Claims.RegTakes o s t (BitVec.ofNat 64 old) ∧
        t.task.fsr = s.task.fsr ∧ Advanced o s t ∧ PortsTaken o false s t) ∧
      Sends i o s ((s.setCounter pa v).acquire o) (BitVec.ofNat 64 old)
    (old + y.toNat < 2 ^ 64 → NoRecord s pa (old + y.toNat) → answers (.cadd o) (old + y.toNat)) ∧
    (2 ^ 64 ≤ old + y.toNat →
      exec (.cadd o) s = .next (s.trap { kind := 15, info0 := va, info1 := BitVec.ofNat 64 old, info2 := y })) ∧
    (s.task.sup = true → NoRecord s pa y.toNat → answers (.caddSet o) y.toNat) ∧ NeedsSupervisor (.caddSet o) s) ∧
  ∀ (s : State) (pa : Nat) (v : Word) (tid : BitVec 48) (va : Word), Canonical s →
    (2 ^ 39 ≤ pa → ∀ op, exec (.counterOp pa op tid va) s = .fault (.outsideMemory pa)) ∧
    (pa < 2 ^ 39 → pa % 8 = 0 →
      let sum := s.mem.read pa 8 + v.toNat
      let held : Prop := ∃ t a, exec (.counterOp pa (.add v) tid va) s = .next t ∧ t.heldAdds = s.heldAdds ++ [a] ∧ a.pa = some pa ∧
        a.tid = tid ∧ a.amount = v.toNat ∧ SameMemory s t
      ((s.stack (pa / 2 ^ 35 % 16)).inTransit = true → held) ∧
      ((s.stack (pa / 2 ^ 35 % 16)).inTransit = false → 2 ^ 64 ≤ sum → s.postRoom (s.addTenant pa tid) = false → held) ∧
      (s.addTenant pa tid = if tid = 0 then ((s.stack (pa / 2 ^ 35 % 16)).tenant).getD 0 else tid.extractLsb' 36 12)) ∧
    (pa < 2 ^ 39 → pa % 8 = 0 → (s.stack (pa / 2 ^ 35 % 16)).inTransit = false →
      let sum := s.mem.read pa 8 + v.toNat
      let tenant := s.addTenant pa tid
      (sum < 2 ^ 64 → NoRecord s pa sum → ∃ t, exec (.counterOp pa (.add v) tid va) s = .next t ∧ WordIs s t pa sum ∧ WaitsMet s t pa sum) ∧
      (2 ^ 64 ≤ sum → NoRecord s pa (2 ^ 64 - 1) → s.postRoom tenant = true → ∀ p, s.paddock tenant = some p →
        ∃ t q x, exec (.counterOp pa (.add v) tid va) s = .next t ∧ WordIs s t pa (2 ^ 64 - 1) ∧ t.paddock tenant = some q ∧
          (q.vf p.ownVf).buffer = (p.vf p.ownVf).buffer ++ [x] ∧ x.extractLsb' 0 8 = 5 ∧ x.extractLsb' 64 48 = tid) ∧
      ∀ t g, s.findTask tid = some t → t.wait = .counter pa g none false → g < 2 ^ 64 → g ≤ s.mem.read pa 8 →
        ∃ u, exec (.counterOp pa (.wait (BitVec.ofNat 64 g)) tid va) s = .next u ∧
          (u.findTask tid).map (·.wait) = some (.counter pa g (some (BitVec.ofNat 64 (s.mem.read pa 8))) false) ∧ SameMemory s u)

/-- R240, R306, R312, R314, R317: CRD delivers a counter; CWAIT and BWAIT (of PH, for b + 1) deliver a value that meets the target, take one of
the 64 slots of the home to wait, or find them taken (kind 10, code 6); PH of a record that is not initialised reads as 0; a wait that
has been met delivers the value it was met with. A read of a line with an uncorrectable error completes, and its data error is taken at the
next boundary (of a wait: DEDUCED, assumption 22). -/
def Obligations.CounterWaits : Prop :=
  ∀ (o : Ops) (s : State), Canonical s →
    let errs (i : Instr) (va : Word) (pa : Nat) : Prop := o.x.pd = false →
      ∃ t, exec i s = .next t ∧ t.task.dataErr = some (va, s.task.pc, pa) ∧ Advanced o s t ∧ (∀ n, n ≠ o.d → t.task.rd n = s.task.rd n) ∧
        SameMemory s t
    (∀ va pa, s.srcA o = .ok va → s.counterLoc {} va 8 = .ok pa →
      (s.poisoned pa 8 = false → Delivers (.crd o) o s (s.acquire o) (BitVec.ofNat 64 (s.mem.read pa 8)) 0 (acquires o)) ∧
      (s.poisoned pa 8 = true → errs (.crd o) va pa)) ∧
    (∀ va pa v, s.srcA o = .ok va → s.metValue = some (pa, v) → s.poisoned pa 8 = false →
      Delivers (.cwait o) o s (s.acquire o) v 0 (acquires o) ∧ Delivers (.bwait o) o s (s.acquire o) v 0 (acquires o)) ∧
    (s.metValue = none → ∀ va y, s.srcA o = .ok va →
      let waits (i : Instr) (q now g : Nat) (phase : Bool) : Prop := s.poisoned q 8 = false →
        (g ≤ now → Delivers i o s (s.acquire o) (BitVec.ofNat 64 now) 0 (acquires o)) ∧
        (now < g → s.waitSlots q < 64 → DestBound o s → exec i s = .next (s.stall (.counter q g none phase))) ∧
        (now < g → 64 ≤ s.waitSlots q → exec i s = .next (s.trap { kind := 10, detail := 6, info0 := i.word.setWidth 64 }))
      (∀ pa, s.srcBL o = .ok y → s.counterLoc {} va 8 = .ok pa → waits (.cwait o) pa (s.mem.read pa 8) y.toNat false ∧
        (s.poisoned pa 8 = true → errs (.cwait o) va pa)) ∧
      (∀ pa, s.srcBL o = .ok y → s.counterLoc {} va 64 = .ok pa →
        waits (.bwait o) (pa + 32) (if s.mem.read (pa + 48) 4 = 0 then 0 else s.mem.read (pa + 32) 8) (y.toNat + 1) true ∧
        (s.poisoned (pa + 32) 8 = true → errs (.bwait o) (va + 32) (pa + 32))))

/-- R308, R309, R315 to R317: BEXPECT.init and BEXPECT.grp initialise a record (TA the parties, or the members of the group, 1 at least);
BEXPECT adds b to TB of the phase under way or to NB of the next one, and answers 1 for a phase that is over, 2 for one too far ahead and
3 where there is no record; BARRIVE adds 1 to ARR and delivers PH, and the arrival that completes the phase moves TA, TB and PH on and
clears NB. -/
def Obligations.BarrierPhases : Prop :=
  ∀ (o : Ops) (s : State) (va : Word) (pa : Nat), Canonical s → s.srcA o = .ok va → s.counterLoc { w := true } va 64 = .ok pa → s.poisoned pa 64 = false →
    let w (t : State) (off : Nat) : Nat := t.mem.read (pa + off) 8
    let parties := s.mem.read (pa + 48) 4
    let ends (i : Instr) (b : State) (v : Word) (p : State → Prop) : Prop := Sends i o s b v ∧ (o.x.pd = false →
      ∃ t, exec i s = .next t ∧ Sys2Proof.Claims.RegTakes o s t v ∧ Advanced o s t ∧ t.task.fsr = s.task.fsr ∧ p t ∧
        (∀ a, a < pa ∨ pa + 64 ≤ a → t.mem.byte a = s.mem.byte a) ∧ ∀ a, t.scratch.byte a = s.scratch.byte a)
    (∀ y, s.srcBL o = .ok y → parties = 0 → 1 ≤ y.toNat → y.toNat < 2 ^ 32 →
      ends (.bexpectInit o) (s.initRecord pa y.toNat y.toNat 0) 0 fun t => t.mem.read pa 64 = y.toNat * 2 ^ 128 + y.toNat * 2 ^ 384) ∧
    (∀ y, s.srcBL o = .ok y → (parties ≠ 0 ∨ y = 0 ∨ 2 ^ 32 ≤ y.toNat) → Sys2Proof.Claims.IllegalOperand (.bexpectInit o) s) ∧
    (∀ y g e, s.srcBL o = .ok y → y.toNat % 64 = 0 → s.access { r := true, home := true, ctr := .allow } y = .ok (.phys g e) →
      dirPage e = true → parties = 0 →
      ends (.bexpectGrp o) (s.initRecord pa (max (s.censusCount g) 1) 1 g) 0 fun t => t.mem.read pa 64 = max (s.censusCount g) 1 * 2 ^ 128 + 1 * 2 ^ 384 + g * 2 ^ 448) ∧
    (∀ y c, s.srcBL o = .ok y → s.srcC o = .ok c →
      (parties = 0 → ends (.bexpect o) s 3 fun t => SameMemory s t) ∧
      (parties ≠ 0 → w s 0 < w s 16 →
        (c.toNat < w s 32 → ends (.bexpect o) (s.changed pa) 1 fun t => SameMemory s t) ∧
        (w s 32 + 1 < c.toNat → ends (.bexpect o) (s.changed pa) 2 fun t => SameMemory s t) ∧
        (c.toNat = w s 32 → w s 24 + y.toNat < 2 ^ 64 → ends (.bexpect o) (s.setCounter (pa + 24) (w s 24 + y.toNat)) 0 fun t => WordIs s t (pa + 24) (w s 24 + y.toNat)) ∧
        (c.toNat = w s 32 + 1 → w s 40 + y.toNat < 2 ^ 64 → ends (.bexpect o) (s.setCounter (pa + 40) (w s 40 + y.toNat)) 0 fun t => WordIs s t (pa + 40) (w s 40 + y.toNat)))) ∧
    (parties = 0 → Sys2Proof.Claims.IllegalOperand (.barrive o) s) ∧
    (parties ≠ 0 → w s 0 + 1 < w s 16 → w s 16 < 2 ^ 64 →
      ends (.barrive o) (s.setCounter pa (w s 0 + 1)) (BitVec.ofNat 64 (w s 32)) fun t => WordIs s t pa (w s 0 + 1)) ∧
    (parties ≠ 0 → w s 0 + 1 = w s 16 → w s 24 ≤ w s 8 → (w s 56 = 0 ∨ (s.groupAt (w s 56)).isSome) →
      let n := max (if w s 56 ≠ 0 then s.censusCount (w s 56) else parties) 1
      w s 16 + n < 2 ^ 64 → w s 24 + w s 40 < 2 ^ 64 → w s 32 + 1 < 2 ^ 64 →
      ends (.barrive o) (s.setCounter pa (w s 0 + 1)) (BitVec.ofNat 64 (w s 32)) fun t => w t 0 = w s 0 + 1 ∧ w t 8 = w s 8 ∧ w t 16 = w s 16 + n ∧
        w t 24 = w s 24 + w s 40 ∧ w t 32 = w s 32 + 1 ∧ w t 40 = 0 ∧ t.mem.read (pa + 48) 16 = s.mem.read (pa + 48) 16)

/-! ### Groups -/

/-- R168, R295 to R301: JOIN adds the task as the last member of a group with room, to one of four memberships, writes the members' words and the
header with VER one greater, and delivers VER and its index; a member gets status 1, a full group 2, a fifth membership 3, and the entry
writes the record again. LEAVE removes the task, the last member taking its place, and adds 1 to the settle counter; a task that is no member
gets status 1. Both wait while another task has a halter on a line that the entry writes. -/
def Obligations.GroupMembership : Prop :=
  ∀ (o : Ops) (s : State) (va : Word) (pa : Nat), Canonical s → s.srcA o = .ok va → va.toNat % 64 = 0 → s.groupLoc { w := true } va = .ok pa → s.poisoned pa 8 = false →
    let h := s.census pa
    let g : Group := (s.groupAt pa).getD { pa := pa, ver := h.extractLsb' 40 24, maxm := h.extractLsb' 16 16, members := [] }
    let me := s.task.tid
    let answers (i : Instr) (v : Word) : Prop := (s.groupAt pa = none → Delivers i o s (s.acquire o) v 0 (acquires o)) ∧
      ∀ x, s.groupAt pa = some x → Sends i o s ((s.acquire o).putGroup x) v ∧ (o.x.pd = false →
        ∃ t, exec i s = .next t ∧ t.groupAt pa = some x ∧ t.task.groups = s.task.groups ∧ Sys2Proof.Claims.RegTakes o s t v ∧ Advanced o s t ∧
          t.mem.read pa 8 = x.header.toNat ∧
          (∀ i m, x.members[i]? = some m → t.mem.read (pa + 64 + 16 * i) 8 = m.1.toNat ∧ t.mem.read (pa + 72 + 16 * i) 8 = m.2.toNat) ∧
          (∀ a, (a < pa ∨ pa + 8 ≤ a) → (a < pa + 64 ∨ pa + 64 + 16 * x.members.length ≤ a) → t.mem.byte a = s.mem.byte a))
    (s.groupHaltered me pa = true → DestBound o s → exec (.join o) s = .next (s.stall .retry) ∧
      (s.srcB o = .ok 0 → exec (.leave o) s = .next (s.stall .retry))) ∧
    (s.groupHaltered me pa = false →
    (((s.groupAt pa).isSome ∨ (1 ≤ g.maxm.toNat ∧ g.maxm.toNat ≤ 16384 ∧ h.extractLsb' 0 16 = 0 ∧ s.groupEntries pa < 16)) →
      (∀ j, g.members.findIdx? (·.1 == me) = some j → answers (.join o) (groupResult g.ver 1 j)) ∧
      (g.members.findIdx? (·.1 == me) = none →
        (4 ≤ s.task.groups.length → answers (.join o) (groupResult g.ver 3 0)) ∧
        (s.task.groups.length < 4 → g.maxm.toNat ≤ g.members.length → answers (.join o) (groupResult g.ver 2 0)) ∧
        (s.task.groups.length < 4 → g.members.length < g.maxm.toNat →
          Sends (.join o) o s ((s.acquire o).joinGroup g s.task) (groupResult (g.ver + 1) 0 g.members.length) ∧ (o.x.pd = false →
          let ms := g.members ++ [(me, s.task.rank &&& 0x80000000000FFFFF)]
          let j := g.members.length
          ∃ t, exec (.join o) s = .next t ∧ t.groupAt pa = some { g with ver := g.ver + 1, members := ms } ∧
            t.task.groups = s.task.groups ++ [pa] ∧ Sys2Proof.Claims.RegTakes o s t (groupResult (g.ver + 1) 0 j) ∧ Advanced o s t ∧
            t.mem.read pa 8 = ({ g with ver := g.ver + 1, members := ms } : Group).header.toNat ∧
            (∀ i m, ms[i]? = some m → t.mem.read (pa + 64 + 16 * i) 8 = m.1.toNat ∧ t.mem.read (pa + 72 + 16 * i) 8 = m.2.toNat) ∧
            (∀ a, (a < pa ∨ pa + 8 ≤ a) → (a < pa + 64 ∨ pa + 80 + 16 * j ≤ a) → t.mem.byte a = s.mem.byte a))))) ∧
    (s.groupAt pa = none → (g.maxm = 0 ∨ 16384 < g.maxm.toNat ∨ h.extractLsb' 0 16 ≠ 0) → Sys2Proof.Claims.IllegalOperand (.join o) s) ∧
    (s.groupAt pa = none → 1 ≤ g.maxm.toNat → g.maxm.toNat ≤ 16384 → h.extractLsb' 0 16 = 0 → 16 ≤ s.groupEntries pa →
      exec (.join o) s = .next (s.trap { kind := 10, detail := 4, info0 := (Instr.word (.join o)).setWidth 64 })) ∧
    (s.srcB o = .ok 0 →
      (s.groupAt pa = none → answers (.leave o) (groupResult (h.extractLsb' 40 24) 1 0)) ∧
      (∀ x, s.groupAt pa = some x → x.members.findIdx? (·.1 == me) = none → answers (.leave o) (groupResult x.ver 1 0))) ∧
    (∀ x j vb, s.groupAt pa = some x → x.members.findIdx? (·.1 == me) = some j → s.srcB o = .ok vb →
      (vb = 0 → Sends (.leave o) o s ((s.acquire o).leaveGroup x j me) (groupResult (x.ver + 1) 0 j)) ∧ (o.x.pd = false →
      let last := x.members.length - 1
      let ms := (x.members.set j (x.members.getD last (0, 0))).take last
      let gone (t : State) : Prop := Sys2Proof.Claims.RegTakes o s t (groupResult (x.ver + 1) 0 j) ∧ Advanced o s t ∧
        t.groupAt pa = (if ms = [] then none else some { x with ver := x.ver + 1, members := ms }) ∧
        t.task.groups = s.task.groups.filter (· != pa) ∧
        t.mem.read pa 8 = ({ x with ver := x.ver + 1, members := ms } : Group).header.toNat
      (vb = 0 → ∃ t, exec (.leave o) s = .next t ∧ gone t ∧
        (∀ i m, ms[i]? = some m → t.mem.read (pa + 64 + 16 * i) 8 = m.1.toNat ∧ t.mem.read (pa + 72 + 16 * i) 8 = m.2.toNat) ∧
        (∀ a, (a < pa ∨ pa + 8 ≤ a) → (a < pa + 64 ∨ pa + 64 + 16 * last ≤ a) → t.mem.byte a = s.mem.byte a)) ∧
      (∀ p, vb ≠ 0 → vb.toNat % 8 = 0 → s.counterLoc { w := true } vb 8 = .ok p →
        (p / 64 * 64 + 64 ≤ pa ∨ pa + 80 + 16 * last ≤ p / 64 * 64) → s.mem.read p 8 + 1 < 2 ^ 64 → NoRecord s p (s.mem.read p 8 + 1) →
        ∃ t, exec (.leave o) s = .next t ∧ gone t ∧ t.mem.read p 8 = s.mem.read p 8 + 1))))

/-- R295, R297 to R299, R301: GINFO delivers the header, a member's rank word or a member's TID, from the entry of an active group or from
the memory of an idle one (of lines without an uncorrectable error and without another task's halter), and 0 past the last member. At the
home of a group a JOIN or LEAVE of a task changes the entry and the memberships in the same way, and waits for a halter on a line that it
writes (R168). That an event past 2^39 ends in the fault outsideMemory is the model's choice (DESIGN CHOICE, assumption 61). -/
def Obligations.GroupReads : Prop :=
  (∀ (o : Ops) (s : State) (va y : Word) (pa : Nat), Canonical s → s.srcA o = .ok va → s.srcB o = .ok y → va.toNat % 64 = 0 →
    s.groupLoc {} va = .ok pa →
    let answers (i : Instr) (v : Word) : Prop := Delivers i o s (s.acquire o) v 0 (acquires o)
    (∀ g, s.groupAt pa = some g →
      answers (.ginfoHdr o) g.header ∧
      (∀ m, g.members[y.toNat]? = some m → answers (.ginfoMem o) m.2 ∧ answers (.ginfoTid o) (m.1.setWidth 64)) ∧
      (g.members.length ≤ y.toNat → answers (.ginfoMem o) 0 ∧ answers (.ginfoTid o) 0)) ∧
    (s.groupAt pa = none → s.poisoned pa 8 = false →
      let hdr := s.mem.read pa 8
      answers (.ginfoHdr o) (BitVec.ofNat 64 hdr) ∧
      (y.toNat < hdr % 65536 → s.poisoned (pa + 64 + 16 * y.toNat) 16 = false → s.haltered s.task.tid ((pa + 64 + 16 * y.toNat) / 64) = false →
        answers (.ginfoMem o) (BitVec.ofNat 64 (s.mem.read (pa + 72 + 16 * y.toNat) 8)) ∧
        answers (.ginfoTid o) (BitVec.ofNat 64 (s.mem.read (pa + 64 + 16 * y.toNat) 8 % 2 ^ 48))) ∧
      (hdr % 65536 ≤ y.toNat → answers (.ginfoMem o) 0 ∧ answers (.ginfoTid o) 0))) ∧
  ∀ (s : State) (pa : Nat) (tid : BitVec 48), Canonical s →
    (2 ^ 39 ≤ pa → ∀ j, exec (.groupChange pa j tid) s = .fault (.outsideMemory pa)) ∧
    (pa < 2 ^ 39 → s.groupHaltered tid pa = true → ∀ j, exec (.groupChange pa j tid) s = .next s) ∧
    (pa < 2 ^ 39 → pa % 64 = 0 → (s.stack (pa / 2 ^ 35 % 16)).inTransit = false → s.groupHaltered tid pa = false → ∀ t g, s.findTask tid = some t → s.groupAt pa = some g →
      (g.members.findIdx? (·.1 == tid) = none → t.groups.length < 4 → g.members.length < g.maxm.toNat →
        ∃ u, exec (.groupChange pa true tid) s = .next u ∧
          u.groupAt pa = some { g with ver := g.ver + 1, members := g.members ++ [(tid, t.rank &&& 0x80000000000FFFFF)] } ∧
          (u.findTask tid).map (·.groups) = some (t.groups ++ [pa])) ∧
      (∀ j, g.members.findIdx? (·.1 == tid) = some j → j + 1 = g.members.length → 0 < j →
        ∃ u, exec (.groupChange pa false tid) s = .next u ∧ u.groupAt pa = some { g with ver := g.ver + 1, members := g.members.take j } ∧
          (u.findTask tid).map (·.groups) = some (t.groups.filter (· != pa))))

/-! ### Translation and paging -/

/-- R324, R325, R327, R337: TLBI of a supervisor drops the cached translations and the cached table entries within its scope that it
names, and no other: of an address in an ASID, of an ASID, of a frame through any copy of its page (whose code bit it clears), or all. -/
def Sys2Proof.Claims.TlbInvalidate : Prop :=
  ∀ (o : Ops) (s : State), Canonical s →
    NeedsSupervisor (.tlbiVa o) s ∧ NeedsSupervisor (.tlbiAs o) s ∧ NeedsSupervisor (.tlbiFrm o) s ∧ NeedsSupervisor (.tlbiAll o) s ∧
    (s.task.sup = true →
      TlbDropped (.tlbiAll o) o s (fun _ => True) (fun _ => True) ∧
      ∀ a, s.srcA o = .ok a →
        TlbDropped (.tlbiAs o) o s (fun e => e.asid = a.setWidth 12) (fun e => e.asid = a.setWidth 12) ∧
        (∀ b, s.srcB o = .ok b →
          (a.toNat < 2 ^ 48 → TlbDropped (.tlbiVa o) o s (fun e => e.asid = b.setWidth 12 ∧ e.va / 2 ^ e.bits = a.toNat / 2 ^ e.bits)
            fun e => e.asid = b.setWidth 12 ∧ e.tag = a.toNat / 2 ^ levelBits e.level) ∧
          (2 ^ 48 ≤ a.toNat → Sys2Proof.Claims.IllegalOperand (.tlbiVa o) s)) ∧
        (a.toNat < 2 ^ 39 →
          TlbDropped (.tlbiFrm o) o s (fun e => e.maps (4096 * (a.toNat / 4096)) = true) (fun _ => False) ∧
          ∀ t, exec (.tlbiFrm o) s = .next t → ∀ pa, t.isCode pa = (s.isCode pa && decide (pa / 4096 ≠ a.toNat / 4096))) ∧
        (2 ^ 39 ≤ a.toNat → Sys2Proof.Claims.IllegalOperand (.tlbiFrm o) s))

/-- R338: PROBE delivers what an access of the form would meet: NG 0 with the physical address and the permission bits of the leaf
where the access would pass, else NG 1 and in FK the kind of what stops it (1 no leaf, 2 paged out, 3 permission, 4 stack, 5 malformed).
The address space is the task's own where b is 0, or, for a supervisor, names its ASID. -/
def Sys2Proof.Claims.ProbeReports : Prop :=
  ∀ (o : Ops) (s : State) (a b : Word), Canonical s → s.srcA o = .ok a → s.srcB o = .ok b → s.task.granted = none →
    (b = 0 ∨ (b.getLsbD 63 = true ∧ s.task.sup = true ∧ s.task.aspace.extractLsb' 52 12 = b.setWidth 12)) →
    let reports (i : Instr) (n : Want) : Prop :=
      (∀ pa e, s.check s.task.who n a = .ok (.phys pa e) → ∃ v, Delivers i o s s v 0 false ∧ v.getLsbD 63 = false ∧
        v.extractLsb' 0 39 = BitVec.ofNat 39 pa ∧ v.getLsbD 49 = pteR e ∧ v.getLsbD 50 = pteW e ∧ v.getLsbD 51 = pteX e ∧
        v.getLsbD 52 = pteTlk e ∧ v.getLsbD 53 = pteRep e ∧ v.getLsbD 54 = pteCtr e ∧ v.extractLsb' 55 2 = pteMode e) ∧
      (∀ k, s.check s.task.who n a = .ok (.scratch k) → ∃ v, Delivers i o s s v 0 false ∧ v.getLsbD 63 = false ∧ v.getLsbD 49 = true ∧
        v.getLsbD 50 = true) ∧
      (∀ x, s.check s.task.who n a = .error x → (∀ k h, x ≠ .transit k h) → x ≠ .busy → ∃ v, Delivers i o s s v 0 false ∧
        v.getLsbD 63 = true ∧ v.extractLsb' 60 3 = (match x with
          | .translation d => if d = 2 then 5 else 1 | .paging _ => 2 | .permission => 3 | .stack => 4 | .transit _ _ => 0 | .busy => 0))
    reports (.probeR o) { r := true, ctr := .allow } ∧ reports (.probeW o) { w := true } ∧ reports (.probeX o) { x := true }

/-- R337, R338: TLBI and PROBE. -/
def Obligations.TranslationInstructions : Prop :=
  Sys2Proof.Claims.TlbInvalidate ∧ Sys2Proof.Claims.ProbeReports

/-- R258, R320, R323, R324, R327, R328, R332 to R335: a walk installs the leaf it finds in the TLBs of the core and its cluster, and sets the code bit
of a frame that it maps with X; a code store marks its line for its task; an access to a page that is paged out parks the task and posts
a record of type 1; the host's resume of that record lets the task run again, once the host's earlier posted writes have performed. -/
def Obligations.PagingEvents : Prop :=
  ∀ (s : State), Canonical s →
    (∀ core aspace va fetch p e level bits, s.paddocks.find? (·.hasCore core) = some p → va.toNat < scratchBase →
      s.walk (p.feat.getLsbD 1) { core := core, aspace := aspace, sup := true, tenant := p.cfg.tenant } va.toNat = .leaf e level bits →
      (fetch = true → pteX e = true) →
      ∃ u, exec (.pageWalk core aspace va fetch) s = .next u ∧
        (∀ place, place = core ∨ place = 10000 + core / 8 → ∃ x ∈ u.tlb, x.place = place ∧ x.asid = aspace.extractLsb' 52 12 ∧
          x.bits = bits ∧ x.leafOf va.toNat = e ∧ x.va ≤ va.toNat ∧ va.toNat < x.va + 2 ^ x.bits ∧
          (pteRep e = false → x.pa ≤ leafPa e level va.toNat ∧ leafPa e level va.toNat < x.pa + 2 ^ x.bits)) ∧
        (pteX e = true → u.isCode (leafPa e level va.toNat) = true) ∧ (pteX e = false → u.codeBits = s.codeBits) ∧
        u.task = s.task ∧ u.others = s.others ∧ SameMemory s u) ∧
    (∀ tid (die : BitVec 2) pa, s.isCode pa = true →
      ((∃ m ∈ s.marks, m.line = pa / 64 ∧ m.die = some die) ∨
        (s.marks.filter fun m => m.line != pa / 64 && m.die == some die && m.line % 160 == pa / 64 % 160).length < 1024) →
      ∃ u, exec (.codeStoreMark tid die pa) s = .next u ∧ (∃ m ∈ u.marks, m.line = pa / 64 ∧ m.tid = some tid ∧ m.die = some die) ∧
        (∀ m, m.line ≠ pa / 64 → (m ∈ u.marks ↔ m ∈ s.marks)) ∧ u.task = s.task ∧ SameMemory s u) ∧
    (∀ va code level p, s.task.cstate = .running → s.check s.task.who (wantOf code) va = .error (.paging level) →
      s.paddock s.task.tenant = some p → s.postRoom s.task.tenant = true →
      (∀ r ∈ (p.vf p.ownVf).paging, ¬ (r.asid = s.task.aspace.extractLsb' 52 12 ∧ r.page = va.toNat / 4096)) →
      ∃ u q x, exec (.demandPagingFault va code) s = .next u ∧ u.task.cstate = .parked ∧ u.task.parked = true ∧ u.task.pc = s.task.pc ∧
        u.task.g = s.task.g ∧ u.paddock s.task.tenant = some q ∧ (q.vf p.ownVf).buffer = (p.vf p.ownVf).buffer ++ [x] ∧
        x.extractLsb' 0 8 = 1 ∧ x.extractLsb' 8 8 = code ∧ x.extractLsb' 64 48 = s.task.tid ∧ x.extractLsb' 128 64 = va ∧
        x.extractLsb' 192 64 = s.task.pc ∧ (∀ h ∈ u.halters, h.tid ≠ s.task.tid) ∧
        (s.task.groups = [] → s.task.saved = none → SameMemory s u)) ∧
    (∀ va code level, s.task.cstate = .running → s.check s.task.who (wantOf code) va = .error (.paging level) →
      s.pagingRoom s.task.tenant (s.task.aspace.extractLsb' 52 12) va = false → exec (.demandPagingFault va code) s = .next (s.stall .retry)) ∧
    (∀ tenant (vf : BitVec 6) (seq : BitVec 32) p r t, s.doorbell tenant vf.toNat true = some p → (p.vf vf.toNat).resumes = [] →
      s.hostPending tenant s.clk = false → (p.vf vf.toNat).paging = [r] → r.seq = seq →
      r.tids = [t.tid] → s.findTask t.tid = some t → t.cstate = .parked → t.saved = none →
      (∀ q ∈ s.paddocks, ∀ e ∈ q.vfs, ∀ x ∈ e.2.paging, x ≠ r → x.tids.contains t.tid = false) → (∀ q ∈ s.paddocks, q = p ∨ q.cfg.tenant ≠ tenant) →
      (∀ e ∈ p.vfs, e.1 ≠ vf.toNat → r ∉ e.2.paging) → (∀ q ∈ s.paddocks, q ≠ p → ∀ e ∈ q.vfs, r ∉ e.2.paging) →
      ∃ u x q, exec (.doorbellResume tenant vf seq) s = .next u ∧ u.findTask t.tid = some x ∧ x.cstate = .running ∧ x.parked = false ∧
        x.pc = t.pc ∧ x.g = t.g ∧ u.paddock tenant = some q ∧ (q.vf vf.toNat).paging = [] ∧ (q.vf vf.toNat).resumes = [] ∧ SameMemory s u) ∧
    (∀ tenant (vf : BitVec 6) (seq : BitVec 32) p, s.doorbell tenant vf.toNat true = some p → (p.vf vf.toNat).resumes = [] →
      s.hostPending tenant s.clk = true →
      ∃ u q, exec (.doorbellResume tenant vf seq) s = .next u ∧ u.paddock tenant = some q ∧ (q.vf vf.toNat).resumes = [(seq, s.clk)] ∧
        (q.vf vf.toNat).paging = (p.vf vf.toNat).paging ∧ u.task = s.task ∧ u.others = s.others ∧ SameMemory s u)

/-! ### Stacks -/

/-- R341, R350, R351: STK.GIVE of a supervisor starts the hand-over of an owned stack of its paddock (status 0), and gives 1, 2 or 3 where
it is handing over, out of service, or the other die lacks room; STK.STAT delivers state, owner, step, reach, tenant and count of a stack
of the paddock, and 2 for any other. -/
def Sys2Proof.Claims.StackInstructions : Prop :=
  ∀ (o : Ops) (s : State) (a : Word), Canonical s → s.srcA o = .ok a →
    NeedsSupervisor (.stkGive o) s ∧
    (∀ b pa p, s.task.sup = true → s.srcB o = .ok b → s.paddock s.task.tenant = some p → s.assigned a.toNat s.task.tenant = true →
      p.onDie (a.toNat / 4) = true → p.onDie ((a.toNat / 4 + 1) % 4) = true → s.giveCounter b = .ok pa →
      let k := s.stack a.toNat
      let recent := s.recent.filter (·.1 != s.task.tid)
      let answers (v : Word) (y : Stack) : Prop :=
        Sends (.stkGive o) o s ({ s with recent := recent }.setStack a.toNat y) v ∧ (o.x.pd = false →
        ∃ t, exec (.stkGive o) s = .next t ∧ t.stack a.toNat = y ∧ (∀ n, n ≠ a.toNat → t.stack n = s.stack n) ∧ t.recent = recent ∧
          Sys2Proof.Claims.RegTakes o s t v ∧ t.task.fsr = s.task.fsr ∧ Advanced o s t ∧ SameMemory s t)
      (k.state = .handing → answers 1 k) ∧ ((k.state = .offline ∨ k.state = .scrubbing) → answers 2 k) ∧
      (k.state = .owned → s.lacksRoom a.toNat = true → answers 3 k) ∧
      (k.state = .owned → s.lacksRoom a.toNat = false → answers 0 { k with state := .handing, step := 1, counter := pa })) ∧
    (15 < a.toNat → Sys2Proof.Claims.IllegalOperand (.stkStat o) s) ∧
    (a.toNat ≤ 15 → s.assigned a.toNat s.task.tenant = false → Delivers (.stkStat o) o s s 2 0 false) ∧
    (a.toNat ≤ 15 → s.assigned a.toNat s.task.tenant = true →
      let k := s.stack a.toNat
      ∃ v, Delivers (.stkStat o) o s s v 0 false ∧
        v.extractLsb' 0 3 = (match k.state with | .owned => 0 | .handing => 1 | .offline => 2 | .scrubbing => 3) ∧
        (¬ (k.state = .handing ∧ k.step = 7) → v.extractLsb' 4 2 = k.owner) ∧ v.extractLsb' 8 3 = k.step ∧
        v.extractLsb' 12 4 = k.reach ||| (1#4 <<< k.owner.toNat) ∧ v.extractLsb' 16 12 = s.task.tenant ∧ v.extractLsb' 32 32 = k.hcnt)

/-- R341 to R348: the seven steps of a hand-over, each where it comes next: no held halter stands on the stack; nothing is left to drain
(DESIGN CHOICE, assumption 5); copies of its lines are gone (a held island's are logged) and its marks lie in the receiving die's L3 slices
alone, each with its TID unless that record is lost; the giving die's translations are dropped; the ports
switch; the owner and the reach flip and its monitors end; once every held request has been served, the counter that STK.GIVE named gains 1 and
the stack is owned again. An
unreached stack goes out of service, is scrubbed with zeros and is assigned. -/
def Sys2Proof.Claims.StackHandOver : Prop :=
  ∀ (s : State) (k : BitVec 4), Canonical s →
    let x := s.stack k.toNat
    let other := s.otherDie k.toNat
    let becomes (i : Instr) (y : Stack) (p : State → Prop) : Prop := ∃ u, exec i s = .next u ∧ u.stack k.toNat = y ∧
      (∀ n, n ≠ k.toNat → u.stack n = s.stack n) ∧ p u
    (x.state = .handing →
      (x.step = 1 → (∀ h ∈ s.halters, lineOn k.toNat h.line = false) → becomes (.handoverMark k) { x with step := 2 } (SameMemory s)) ∧
      (x.step = 2 → becomes (.handoverDrain k) { x with step := 3 } (SameMemory s)) ∧
      (x.step = 3 → becomes (.handoverWriteback k) { x with step := 4 } fun u => SameMemory s u ∧
        (∀ c, (s.island (islandOf c)).state ≠ .hold → ∀ e ∈ (u.core c).lines, lineOn k.toNat e.1 = false) ∧
        (∀ e ∈ u.dir, lineOn k.toNat (e.1 % 2 ^ 34) = false) ∧ (∀ e ∈ u.l3, lineOn k.toNat (e.1 / 4) = false) ∧
        (∀ m ∈ u.marks, lineOn k.toNat m.line = true → m.die = none) ∧ (∀ m ∈ s.marks, lineOn k.toNat m.line = false → m ∈ u.marks) ∧
        (∀ m ∈ s.marks, lineOn k.toNat m.line = true → ∃ y ∈ u.marks, y.line = m.line ∧ (y.tid = m.tid ∨ y.tid = none)) ∧
        u.marks.length = s.marks.length) ∧
      (x.step = 4 → becomes (.handoverShootdown k) { x with step := 5 } fun u => SameMemory s u ∧
        ∀ e, e ∈ u.tlb ↔ e ∈ s.tlb ∧ ¬ (placeDie e.place = x.owner.toNat ∧ e.onStack k.toNat = true)) ∧
      (x.step = 5 → (∀ t ∈ s.tasks, ∀ n, (t.stream n).station = none) → becomes (.handoverPortSwitch k) { x with step := 6 } (SameMemory s)) ∧
      (x.step = 6 → becomes (.handoverFlip k)
          { x with owner := BitVec.ofNat 2 other, reach := (x.reach ||| (1#4 <<< other)) &&& ~~~(1#4 <<< x.owner.toNat), step := 7 }
          fun u => SameMemory s u ∧ ∀ t ∈ s.others, ∀ l c r, t.wait = .wfe l c false r → lineOn k.toNat l = true →
            ∃ y ∈ u.others, y = { t with wait := .wfe l c true r }) ∧
      (x.step = 7 → (s.stack (x.counter / 2 ^ 35 % 16)).inTransit = false → s.heldStill k.toNat = false → s.mem.read x.counter 8 + 1 < 2 ^ 64 →
        NoRecord s x.counter (s.mem.read x.counter 8 + 1) →
        becomes (.handoverComplete k) { x with state := .owned, step := 0, hcnt := x.hcnt + 1 } fun u => WordIs s u x.counter (s.mem.read x.counter 8 + 1))) ∧
    (x.state = .owned → (∀ t ∈ s.tasks, t.cstate ≠ .free → x.reachable t.die = false) →
      becomes (.stackOffline k) { x with state := .offline, step := 0, tenant := none } (SameMemory s)) ∧
    (x.state = .offline → becomes (.stackScrub k) { x with state := .scrubbing } fun u =>
      (∀ a, u.mem.byte a = if a / 2 ^ 35 % 16 = k.toNat then 0 else s.mem.byte a) ∧ (∀ a, u.scratch.byte a = s.scratch.byte a) ∧
      ∀ l, lineOn k.toNat l = true → smapGet false u.poison l = false) ∧
    (x.state = .scrubbing → ∀ tenant reach,
      becomes (.stackAssign k tenant reach) { x with state := .owned, tenant := some tenant, reach := reach ||| (1#4 <<< x.owner.toNat) } (SameMemory s))

/-- R341 to R351: STK.GIVE, STK.STAT, the steps of a hand-over, and the farrier monitor's acts on a stack. -/
def Obligations.Stacks : Prop :=
  Sys2Proof.Claims.StackInstructions ∧ Sys2Proof.Claims.StackHandOver

/-! ### Power -/

/-- R21, R155, R385: Hold of an island without tasks writes its cores' lines back, gives up their ownership and drops lent ones; an invalidation
that comes to a held core is counted, and logged where the core holds the line and the log has room; the wake drops the logged lines (all of them past 64) and the SINV lines and clears SGEN; Off leaves no
state; gated issue slots do not issue until the gate's clks have passed; a base island changes its rate. When an island is empty and what Off takes
with it (scratch reads 0, core and cluster are empty) rest on assumptions 63 (DEDUCED) and 3 (DESIGN CHOICE). -/
def Obligations.PowerIslands : Prop :=
  ∀ (s : State) (n : BitVec 7), Canonical s →
    let i := n.toNat
    let after (e : Instr) (st : IslandSt) (p : State → Nat → Prop) : Prop := ∃ u, exec e s = .next u ∧ (u.island i).state = st ∧
      (∀ j, j ≠ i → u.island j = s.island j) ∧ (∀ c, islandOf c = i → p u c) ∧ (∀ c, islandOf c ≠ i → u.core c = s.core c) ∧
      u.task = s.task ∧ u.others = s.others ∧ ∀ a, u.mem.byte a = s.mem.byte a
    (i < 96 → (s.island i).state = .run → s.islandEmpty i = true → after (.islandHold n) .hold fun u c =>
      (∀ e ∈ (u.core c).lines, e.2.place ≠ .pool ∧ (e.2.present = true → e.2.dirty = false ∧ e.2.excl = false)) ∧ (u.core c).sleepLog = [] ∧ (u.core c).sleepCount = 0 ∧
      (u.core c).sgen = (s.core c).sgen) ∧
    (∀ c index, (s.island (islandOf c)).state = .hold →
      let held : Bool := (s.core c).lines.any fun e => e.2.index == index && e.2.present && e.2.place != .pool
      ∃ u, exec (.sleepProxyInvalidate c index) s = .next u ∧ (u.core c).sleepCount = (s.core c).sleepCount + 1 ∧
        (u.core c).lines = (s.core c).lines ∧
        (u.core c).sleepLog = (if held = true ∧ (s.core c).sleepLog.length < 64 then (s.core c).sleepLog ++ [index] else (s.core c).sleepLog) ∧
        (∀ d, d ≠ c → u.core d = s.core d) ∧ SameMemory s u) ∧
    (i < 96 → (s.island i).state ≠ .run → after (.islandWake n) .run fun u c => (u.core c).sgen = 0 ∧ (u.core c).sleepLog = [] ∧
      ∀ e, e ∈ (u.core c).lines ↔ e ∈ (s.core c).lines ∧ e.2.sinv = false ∧
        (e.2.place = .pool ∨ ((s.core c).sleepCount ≤ 64 ∧ e.2.index ∉ (s.core c).sleepLog))) ∧
    (i < 96 → s.islandEmpty i = true → s.islandUsed i = false → after (.islandOff n) .off fun u c => u.core c = {} ∧ u.cluster (c / 8) = {} ∧
      ∀ b, b < 262144 → u.scratch.byte (262144 * c + b) = 0) ∧
    (∀ c clks, 0 < clks → ∃ u, exec (.issueGating c clks) s = .next u ∧ (u.core c).gate = s.clk + clks ∧ exec (.issue c) u = .next u ∧
      (∀ d, d ≠ c → u.core d = s.core d)) ∧
    (96 ≤ i → ∀ half, ∃ u, exec (.baseIslandRateChange n half) s = .next u ∧ u.island i = { s.island i with half := half } ∧
      ∀ j, j ≠ i → u.island j = s.island j)

/-! ### Links and peer packages -/

/-- R356 to R359, R3: the states of a link: enabled it trains, for 100 ms at most; trained it runs at the greatest of its widths that its
good lanes give, up at full width and rate, degraded below, and is down below its least width or after the timeout; a lane failure
degrades a link that is up, a retraining restores it, disabling brings it down from any state; a quarantine names its cause; a flit
that fails its check is replayed and counted, the ninth time it quarantines the link (cause 2), as more than 65,536 replays within 1 ms
do (cause 1). The widths of the host link and the lanes that stay are assumption 18; the ninth failure, what a window of 1 ms counts and
disabling from quarantine are assumption 64. -/
def Sys2Proof.Claims.LinkStates : Prop :=
  ∀ (s : State) (n : BitVec 5) (h : n.toNat < 17), let l := s.links[n.toNat]
    let becomes (i : Instr) (y : Link) : Prop := ∃ u, exec i s = .next u ∧ u = { s with links := u.links } ∧ u.links[n.toNat] = y ∧
      ∀ m, (hm : m < 17) → m ≠ n.toNat → u.links[m] = s.links[m]
    let widths : List Nat := if n.toNat ≤ 3 then [16, 8] else if n.toNat = 4 then [16, 8, 4, 2, 1] else [8, 4, 2]
    let full := if n.toNat ≤ 4 then 16 else 8
    let least := if n.toNat ≤ 3 then 8 else if n.toNat = 4 then 1 else 2
    let best (w lanes : Nat) : Prop := w ∈ widths ∧ w ≤ lanes ∧ ∀ x ∈ widths, x ≤ lanes → x ≤ w
    let down : Link := { l with state := .down, lanes := 0, half := false, failed := 0 }
    let recent := l.replays.filter fun c => s.clk < c + 850000
    (l.state = .down → becomes (.linkEnable n)
      { l with state := .training, retry := 0, replays := [], failed := 0, since := s.clk }) ∧
    (l.state = .training → s.clk < l.since + 85000000 →
      (∀ (lanes : BitVec 5) half w, best w lanes.toNat → becomes (.linkTrained n lanes half)
        { l with state := if w = full ∧ half = false then .up else .degraded, lanes := BitVec.ofNat 5 w, half := half }) ∧
      (∀ (lanes : BitVec 5) half, lanes.toNat < least → becomes (.linkTrained n lanes half) down) ∧
      becomes (.linkTrainingTimeout n) l) ∧
    (l.state = .training → l.since + 85000000 ≤ s.clk →
      (∀ (lanes : BitVec 5) half, becomes (.linkTrained n lanes half) down) ∧ becomes (.linkTrainingTimeout n) down) ∧
    (l.state = .up → ∀ (lanes : BitVec 5) half,
      (∀ w, best w lanes.toNat → (w < full ∨ half = true) →
        becomes (.laneFailure n lanes half) { l with state := .degraded, lanes := BitVec.ofNat 5 w, half := half }) ∧
      ((lanes.toNat < least ∨ (full ≤ lanes.toNat ∧ half = false)) → becomes (.laneFailure n lanes half) l)) ∧
    (l.state = .degraded → becomes (.linkRetrain n) { l with state := .up, lanes := BitVec.ofNat 5 full, half := false }) ∧
    becomes (.linkDisable n) down ∧
    ((l.state = .up ∨ l.state = .degraded) →
      ((5 ≤ n.toNat → becomes (.linkQuarantine n 3) { l with state := .quarantined, cause := 3 }) ∧
        becomes (.linkQuarantine n 4) { l with state := .quarantined, cause := 4 } ∧
        (8 ≤ l.failed → becomes (.linkQuarantine n 2) { l with state := .quarantined, cause := 2 }) ∧
        (65536 < recent.length → becomes (.linkQuarantine n 1) { l with state := .quarantined, cause := 1 })) ∧
      becomes (.flitReceive n true) { l with failed := 0 } ∧
      (l.failed < 8 → l.retry ≠ 0xFFFFFFFF →
        let y := { l with failed := l.failed + 1, replays := s.clk :: recent, retry := l.retry + 1 }
        becomes (.flitReceive n false) (if 65536 ≤ recent.length then { y with state := .quarantined, cause := 1 } else y)) ∧
      (8 ≤ l.failed → becomes (.flitReceive n false) { l with state := .quarantined, cause := 2, failed := 0 }) ∧
      (65536 < recent.length → becomes (.replayRateWindow n) { l with state := .quarantined, cause := 1 })) ∧
    ((n.toNat ≤ 4 → becomes (.linkQuarantine n 3) l) ∧ (l.failed < 8 → becomes (.linkQuarantine n 2) l) ∧
      (recent.length ≤ 65536 → becomes (.linkQuarantine n 1) l ∧ becomes (.replayRateWindow n) l))

/-- R362, R363, R366, R367: a router whose bit for a tenant is clear drops the message and reports it; a word that a peer accepts on the
port it left on is no longer unacknowledged; the next numbered word from a peer, of a tenant that the port admits, is accepted where it
finds room and an arc leads from the port's die to its core, or dropped and reported by a router on its way (the routers that it passes are
assumption 46); one already accepted or out of turn changes nothing; a word of a tenant that is not admitted quarantines the port with
cause 3; where the port of a core's words to a peer has changed, a replay sends the unacknowledged ones on the new port, in their order.
Repeated and out-of-turn words, the two directions of PEER_WORD_RECEIVE and the replay are assumption 45. -/
def Sys2Proof.Claims.PeerWords : Prop :=
  ∀ (s : State), Canonical s →
    (∀ router (tenant : BitVec 12), (smapGet (0 : BitVec 4096) s.routerBits router).getLsbD tenant.toNat = false →
      exec (.tenantDrop router tenant) s = .next { s with drops := s.drops ++ [(router, tenant)] }) ∧
    (∀ router (tenant : BitVec 12), (smapGet (0 : BitVec 4096) s.routerBits router).getLsbD tenant.toNat = true →
      exec (.tenantDrop router tenant) s = .next s) ∧
    (∀ (pkg : BitVec 12) (port : BitVec 4) (src : BitVec 14) (seq core : Nat) (w : PortWord),
      let key := src.toNat * 4096 + pkg.toNat
      let tx := smapGet {} s.peerTx key
      let receive := exec (.peerWordReceive { pkg := pkg, port := port } src seq core w) s
      (s.linkUp (port.toNat + 5) = false → receive = .next s) ∧
      (s.linkUp (port.toNat + 5) = true →
        ((seq, w) ∈ tx.unacked → tx.port ≠ some port.toNat → receive = .next s) ∧
        ((seq, w) ∈ tx.unacked → tx.port = some port.toNat →
          ∃ u, receive = .next u ∧ u = { s with peerTx := u.peerTx } ∧
            (∀ x, x ∈ (smapGet {} u.peerTx key).unacked ↔ x ∈ tx.unacked ∧ x.1 ≠ seq) ∧
            (smapGet {} u.peerTx key).next = tx.next ∧ (smapGet {} u.peerTx key).port = tx.port ∧
            ∀ k, k ≠ key → smapGet {} u.peerTx k = smapGet {} s.peerTx k) ∧
        ((seq, w) ∉ tx.unacked → (smapGet (0 : BitVec 4096) s.admitted port.toNat).getLsbD w.tenant.toNat = true →
          (∀ s1 arc, seq = smapGet 0 s.peerRx key → s.arc (s.dies w.tenant) (port.toNat / 3) (core / 2304) = some arc →
            s.stopsAt w.tenant (portRouters core port.toNat arc) = none → s.arrive core { w with stamp := s.stamp } = some s1 →
            ∃ u, receive = .next u ∧ u = { s1 with peerRx := u.peerRx } ∧
              smapGet 0 u.peerRx key = seq + 1 ∧ ∀ k, k ≠ key → smapGet 0 u.peerRx k = smapGet 0 s.peerRx k) ∧
          (∀ arc r, seq = smapGet 0 s.peerRx key → s.arc (s.dies w.tenant) (port.toNat / 3) (core / 2304) = some arc →
            s.stopsAt w.tenant (portRouters core port.toNat arc) = some r →
            ∃ u, receive = .next u ∧ u = { s with peerRx := u.peerRx, drops := s.drops ++ [(r, w.tenant)] } ∧
              smapGet 0 u.peerRx key = seq + 1 ∧ ∀ k, k ≠ key → smapGet 0 u.peerRx k = smapGet 0 s.peerRx k) ∧
          (seq = smapGet 0 s.peerRx key → s.arc (s.dies w.tenant) (port.toNat / 3) (core / 2304) = none → receive = .next s) ∧
          (seq ≠ smapGet 0 s.peerRx key → receive = .next s)) ∧
        ((seq, w) ∉ tx.unacked → (smapGet (0 : BitVec 4096) s.admitted port.toNat).getLsbD w.tenant.toNat = false → (h : port.toNat < 12) →
          ∃ u, receive = .next u ∧ u = { s with links := u.links } ∧
            u.links[port.toNat + 5] = { s.links[port.toNat + 5] with state := .quarantined, cause := 3 } ∧
            ∀ m, (hm : m < 17) → m ≠ port.toNat + 5 → u.links[m] = s.links[m]))) ∧
    ∀ (core : Nat) (pkg : BitVec 12),
      let key := core * 4096 + pkg.toNat
      let tx := smapGet {} s.peerTx key
      ((tx.unacked = [] ∨ s.outPort core pkg.toNat = none ∨ s.outPort core pkg.toNat = tx.port) → exec (.peerPortReplay core pkg) s = .next s) ∧
      ∀ port, tx.unacked ≠ [] → s.outPort core pkg.toNat = some port → tx.port ≠ some port →
        ∃ u, exec (.peerPortReplay core pkg) s = .next u ∧ u = { s with peerTx := u.peerTx } ∧
          smapGet {} u.peerTx key = { tx with port := some port } ∧ ∀ k, k ≠ key → smapGet {} u.peerTx k = smapGet {} s.peerTx k

/-- R356 to R367: links, routers and the words of peer packages. What the spec leaves open of them is the model's choice: assumptions 18, 45,
46 and 64. -/
def Obligations.LinksAndPeers : Prop :=
  Sys2Proof.Claims.LinkStates ∧ Sys2Proof.Claims.PeerWords

/-! ### Coherence -/

/-- R139, R142, R145 to R147, R150 to R154, R168, R302, R361: what the home L2 directory of a die and the home L3 do. A first GetS of a core that
keeps the line in its L1 makes the core the owner, one that keeps it in its stash a sharer; a further GetS adds a sharer, of which four are
named, and takes exclusiveness from the owner; a GetX or an upgrade makes the core the owner and invalidates the other copies; a core without
cache keeps nothing; a PutX of the owner frees the entry; a line of a SINV page is filled with the generation of its core. Nothing is
requested of a UNC or counter page, of a line in transit, under a halter, or that no arc leads to, or by a core whose clocks stand. A die's
read makes it E when it is alone, else S, with the dies that had it dirty now O; ownership and a write-through of SINV lines leave M and
every other die I; an eviction and a back-invalidation leave I. No byte of memory changes. Which requests are made when, and through which
translation a core holds a line, are assumption 62 (DEDUCED). -/
def Obligations.LineStates : Prop :=
  ∀ (s : State) (die : BitVec 2) (line q : Nat), Canonical s → line < 2 ^ 33 → q < 2304 →
    let d := die.toNat
    let k : BitVec 12 := BitVec.ofNat 12 q
    let core := 2304 * d + q
    let after (i : Instr) (p : State → Prop) : Prop := ∃ u, exec i s = .next u ∧ p u ∧ SameMemory s u ∧ u.task = s.task ∧ u.others = s.others
    let holds (u : State) (excl dirty : Bool) : Prop :=
      (u.line core line).present = true ∧ (u.line core line).excl = excl ∧ (u.line core line).dirty = dirty
    let idle : Prop := s.served d line = false ∨ s.clocked (core / 8) = false ∨ s.mapping core line = none ∨
      ∃ x, s.mapping core line = some x ∧ cachedPage x.leaf = false
    let untraced : Prop := ∀ p, s.paddocks.find? (·.hasCore core) = some p → p.traceMode = 0
    (idle → exec (.dirGets die line q) s = .next s ∧ exec (.dirGetx die line q) s = .next s ∧ exec (.dirUpg die line q) s = .next s) ∧
    (∀ x, s.served d line = true → s.clocked (core / 8) = true → s.mapping core line = some x → cachedPage x.leaf = true →
      let st := (s.core core).stashPlace x.asid (x.vaOf line)
      (pteMode x.leaf ≠ 1 → (st.isSome = true ∨ s.ways core line ≠ []) →
        ((s.line core line).present = false →
          (s.dirEntry d line = .inv → st = none →
            after (.dirGets die line q) fun u => u.dirEntry d line = .own k ∧ holds u true false) ∧
          (s.dirEntry d line = .inv → st.isSome = true →
            after (.dirGets die line q) fun u => u.dirEntry d line = .shp [k] ∧ holds u false false ∧ (u.line core line).place = .stash) ∧
          (∀ l, s.dirEntry d line = .shp l → k ∉ l → l.length < 4 →
            after (.dirGets die line q) fun u => u.dirEntry d line = .shp (l ++ [k]) ∧ holds u false false) ∧
          (∀ l, s.dirEntry d line = .shp l → k ∉ l → 4 ≤ l.length →
            after (.dirGets die line q) fun u => ∃ v, u.dirEntry d line = .shc v ∧ v.getLsbD (q / 32) = true ∧ holds u false false) ∧
          (∀ o : BitVec 12, s.dirEntry d line = .own o → o ≠ k → o.toNat < 2304 →
            after (.dirGets die line q) fun u => u.dirEntry d line = .shp [o, k] ∧ holds u false false ∧
              ((s.line (2304 * d + o.toNat) line).present = true → (s.line (2304 * d + o.toNat) line).place ≠ .pool →
                (u.line (2304 * d + o.toNat) line).present = true ∧ (u.line (2304 * d + o.toNat) line).excl = false))) ∧
        (untraced → s.dirEntry d line ≠ .own k →
          after (.dirGetx die line q) fun u => u.dirEntry d line = .own k ∧ holds u true true ∧
            ∀ m ∈ (s.dirEntry d line).named, m ≠ q → (s.island (islandOf (2304 * d + m))).state = .run → (u.line (2304 * d + m) line).present = false) ∧
        (∀ l, untraced → (s.line core line).present = true → s.dirEntry d line = .shp l → k ∈ l →
          after (.dirUpg die line q) fun u => u.dirEntry d line = .own k ∧ holds u true true ∧
            ∀ m ∈ l, m ≠ k → (s.island (islandOf (2304 * d + m.toNat))).state = .run → (u.line (2304 * d + m.toNat) line).present = false)) ∧
      (pteMode x.leaf ≠ 1 → st = none → s.ways core line = [] → (s.line core line).present = false → untraced →
        after (.dirGets die line q) (fun u => (u.line core line).present = false ∧ u.l3State line d ≠ .I) ∧
        after (.dirGetx die line q) fun u => (u.line core line).present = false ∧ u.dirEntry d line = .inv ∧ smapGet false u.l2dirty (dirKey d line) = true) ∧
      (pteMode x.leaf = 1 → s.ways core line ≠ [] → (s.line core line).present = false →
        after (.dirGets die line q) fun u => (u.line core line).present = true ∧ (u.line core line).sinv = true ∧
          (u.line core line).stamp = (s.core core).sgen)) ∧
    (s.dirEntry d line = .own k →
      after (.dirPutx die line q) fun u => u.dirEntry d line = .inv ∧ (u.line core line).present = false) ∧
    ((s.served d line = false ∨ s.dieCaches d line = false) → exec (.l3Read line die) s = .next s ∧ exec (.l3Ownership line die) s = .next s ∧
      exec (.sinvWriteThrough die line) s = .next s) ∧
    (s.served d line = true → s.dieCaches d line = true → s.l3State line d = .I → (∀ y < 4, ∀ o : BitVec 12, s.dirEntry y line = .own o → o.toNat < 2304) →
      after (.l3Read line die) fun u =>
        ((∀ y < 4, y ≠ d → s.l3State line y = .I) → u.l3State line d = .E) ∧ ((∃ y < 4, y ≠ d ∧ s.l3State line y ≠ .I) → u.l3State line d = .S) ∧
        ∀ y < 4, y ≠ d →
          ((s.l3State line y = .M ∨ s.l3State line y = .E) → u.l3State line y = if s.dieDirty line y then .O else .S) ∧
          (s.l3State line y = .S → u.l3State line y = .S) ∧
          (s.l3State line y = .O → u.l3State line y = .O) ∧ (s.l3State line y = .I → u.l3State line y = .I)) ∧
    (s.served d line = true → s.dieCaches d line = true →
      after (.l3Ownership line die) (fun u => u.l3State line d = .M ∧ ∀ y < 4, y ≠ d → u.l3State line y = .I) ∧
      after (.sinvWriteThrough die line) (fun u => u.l3State line d = .M ∧ (∀ y < 4, y ≠ d → u.l3State line y = .I) ∧
        smapGet false u.l2dirty (dirKey d line) = true)) ∧
    (s.joined d line = false → exec (.l3WriteBack line die) s = .next s) ∧
    (s.l3State line d ≠ .I → s.joined d line = true →
      after (.l3WriteBack line die) fun u => u.l3State line d = .I ∧ u.dirEntry d line = .inv ∧ ∀ y < 4, y ≠ d → u.l3State line y = s.l3State line y) ∧
    ((∀ y < 4, s.l3State line y = .I ∨ s.joined y line = true) → after (.backInvalidation line) (fun u => ∀ y < 4, u.l3State line y = .I))

/-! ### Debug, trace and replay -/

/-- R252, R270, R368, R369, R371 to R374: a stop entry that matches halts and saves its task and then posts the stop record, for which the
queue's buffer of 64 records has room; BKPT does so where a debugger
is attached, with the next instruction's PC saved; a consumed message enters its core's profile; a sample enters a monitor; a home port
records an arrival in its ring, or, replaying, places it at its turn, holds it, or diverges. -/
def Obligations.DebugAndTrace : Prop :=
  (∀ (s : State) (t : Task) (n : Nat) (p : Paddock), Canonical s → s.findTask t.tid = some t → (∀ u ∈ s.others, u.tid = t.tid → u = t) →
    t.cstate = .running → t.saved = none → t.tile = none → t.dataErr = none → s.stopNow t = some n → s.paddock t.tenant = some p → p.dbgq = 0 →
    p.dbgBuf.length < 64 → NothingOut s t →
    ∃ u x q, exec (.stopMatch t.tid) s = .next u ∧ u.findTask t.tid = some x ∧ x.cstate = .preempted ∧ x.pc = t.pc ∧ x.g = t.g ∧
      u.paddock t.tenant = some q ∧ q.dbgBuf = p.dbgBuf ++ [stopRecord t.tid t.pc n]) ∧
  (∀ (o : Ops) (s : State) (n : Nat) (p : Paddock), Canonical s → s.breakEntry = some n → s.task.cstate = .running → s.task.saved = none →
    s.task.tile = none → s.task.dataErr = none → NothingOut s s.task → s.paddock s.task.tenant = some p → p.dbgq = 0 → p.dbgBuf.length < 64 →
    ∃ u q m, exec (.bkpt o) s = .next u ∧ u.task.cstate = .preempted ∧ u.task.pc = s.task.pc + BitVec.ofNat 64 o.len.bytes ∧
      u.task.g = s.task.g ∧ m ≤ n ∧ u.paddock s.task.tenant = some q ∧ q.dbgBuf = p.dbgBuf ++ [stopRecord s.task.tid u.task.pc m]) ∧
  ∀ (s : State), Canonical s →
    (∀ c rank transit wait run, (rank, transit, wait, run) ∈ (s.core c).consumed → (s.core c).profile.length < 32 →
      (∀ e ∈ (s.core c).profile, e.key ≠ rank) →
      ∃ u, exec (.profileUpdate c rank transit wait run) s = .next u ∧
        (u.core c).profile = (s.core c).profile ++ [{ key := rank, words := [1, transit.setWidth 64, wait.setWidth 64, run.setWidth 64] }] ∧
        (u.core c).consumed.length + 1 = (s.core c).consumed.length ∧ (∀ d, d ≠ c → u.core d = s.core d) ∧ SameMemory s u) ∧
    (∀ c (n : BitVec 2) x, let m := (s.cluster c).monitors[n.toNat]'(n.isLt)
      m.cfg.getLsbD 63 = true → s.clocked c = true → s.samples c (m.cfg.extractLsb' 0 4).toNat x = true → 0 < m.count.toNat → m.count.toNat < 2 ^ 64 - 1 → x < 2 ^ 64 →
      ∃ u, exec (.monitorSample c n x) s = .next u ∧
        (let m' := (u.cluster c).monitors[n.toNat]'(n.isLt)
         m'.cfg = m.cfg ∧ m'.count.toNat = m.count.toNat + 1 ∧ m'.least.toNat = min m.least.toNat x ∧ m'.most.toNat = max m.most.toNat x ∧
         (∀ b, b ≠ monitorBin m.cfg x → m'.bins[b]? = m.bins[b]?)) ∧ (∀ d, d ≠ c → u.cluster d = s.cluster d) ∧ SameMemory s u) ∧
    ∀ tenant (port : BitVec 22) (src : BitVec 14) (pa : Word) (p : Paddock) (r : Ring), s.paddock tenant = some p → s.traceRing p port = some r →
      (∀ q, p.traceMode = 1 → r.used < r.nslot → s.traceSlot p port r r.wp = some q → (q + 16 ≤ r.pa ∨ r.pa + 8 ≤ q) →
        ∃ u, exec (.traceRecord tenant port src pa) s = .next u ∧
          u.mem.read q 16 = (pa ++ 0#18 ++ src ++ (s.tracePort tenant port).seq : BitVec 128).toNat ∧
          u.mem.read r.pa 8 = (r.wp + 1) % 2 ^ 64 ∧ (u.tracePort tenant port).seq = (s.tracePort tenant port).seq + 1 ∧
          ∀ a, (a < q ∨ q + 16 ≤ a) → (a < r.pa ∨ r.pa + 8 ≤ a) → u.mem.byte a = s.mem.byte a) ∧
      (p.traceMode = 2 → (s.tracePort tenant port).held = [] → r.rp < r.wp →
        (traceMatch (s.traceAt p port r r.rp) (src, pa) = true →
          ∃ u, exec (.replayArrival tenant port src pa) s = .next u ∧ u.mem.read (r.pa + 8) 8 = (r.rp + 1) % 2 ^ 64 ∧
            (u.tracePort tenant port).held = [] ∧ ∀ a, (a < r.pa + 8 ∨ r.pa + 16 ≤ a) → u.mem.byte a = s.mem.byte a) ∧
        (r.rp + 1 < r.wp → traceMatch (s.traceAt p port r r.rp) (src, pa) = false → traceMatch (s.traceAt p port r (r.rp + 1)) (src, pa) = true →
          ∃ u, exec (.replayArrival tenant port src pa) s = .next u ∧ (u.tracePort tenant port).held = [(src, pa)] ∧ SameMemory s u) ∧
        ((∀ k, k < 8 → r.rp + k < r.wp → traceMatch (s.traceAt p port r (r.rp + k)) (src, pa) = false) → p.dbgq = 0 → p.dbgBuf.length < 64 → p.dbgctl.getLsbD 2 = true →
          ∃ u q, exec (.replayArrival tenant port src pa) s = .next u ∧ u.paddock tenant = some q ∧ q.dbgctl = p.dbgctl &&& ~~~(3 : Word) ∧
            q.dbgBuf = p.dbgBuf ++ [divergenceRecord port (s.traceAt p port r r.rp) src pa] ∧ (u.tracePort tenant port).held = [] ∧ SameMemory s u))

/-! ### Boot, tokens and partitions -/

/-- R375 to R381, R384, R386: the package reset counts the boot and stops at the step that fails (1 where an SRAM test fails, 2 where the
monitor's signature does not verify), else it measures the monitor and leaves memory zero but for the paddocks; a good token grants its
features and is measured, another changes nothing; a quote returns log and signature; a verified paddock's supervisor starts at its entry
with its vector and address space; a partition reset, once no stack of the paddock is handing over or in reach of another paddock's task,
leaves FEAT 0 and no kernel. The causes of a failed step, the keys and the cryptographic functions are opaque (assumption 23). BOOTN after a
failed step 1 is assumption 24, the layout of a log entry and what a quote covers are assumption 25, and what a partition reset keeps and
starts is assumption 59. -/
def Obligations.BootAndPartitions : Prop :=
  ∀ (s : State), Canonical s →
    (∀ cfg, ∃ u, exec (.packageReset cfg) s = .next u ∧ u.boot.lcs = s.boot.lcs ∧ u.task = {} ∧ u.others = [] ∧
      (Config.sramGood s.free = false → (∃ c, u.boot.failed = some (1, c)) ∧ u.boot.step = 0 ∧ u.boot.bootn = s.boot.bootn) ∧
      (Config.sramGood s.free = true → u.boot.bootn = s.boot.bootn + 1 ∧
        (Config.ecdsaVerify (Config.sha384 cfg.monitor) cfg.signature Config.monitorKey = false →
          (∃ c, u.boot.failed = some (2, c)) ∧ u.boot.step = 1) ∧
        (Config.ecdsaVerify (Config.sha384 cfg.monitor) cfg.signature Config.monitorKey = true →
          u.boot.failed = none ∧ u.boot.step = 4 ∧ u.boot.log[0]? = some (logEntry 0 0 0 (Config.sha384 cfg.monitor)) ∧
          (cfg.paddocks = [] → ∀ a, u.mem.byte a = 0)))) ∧
    (∀ token, s.tokenGood token = true → ∃ u f, exec (.debugToken token) s = .next u ∧ u.boot.features = s.boot.features ++ [f] ∧
      f.1 = BitVec.ofNat 64 (field token 0x40 8) &&& 0x3F ∧ f.2 = BitVec.ofNat 16 (field token 0x48 2) ∧ u.boot.log.length = s.boot.log.length + 1 ∧ u = { s with boot := u.boot }) ∧
    (∀ token, s.tokenGood token = false → exec (.debugToken token) s = .next s) ∧
    (∀ nonce tenant, ∃ u sig, exec (.quoteRequest nonce tenant) s = .next u ∧ u = { s with out := u.out } ∧
      u.out = ((s.boot.log.filter fun e => match tenant with | none => true | some t => logType e == 0 || logTenant e == t).flatMap
        fun e => bytesOf 64 e.toNat) ++ bytesOf 96 sig) ∧
    (∀ tenant p core, s.paddock tenant = some p → p.cfg.tenant = tenant → p.firstCore = some core → p.verified = true → p.started = false →
      4 ≤ s.boot.step →
      ∃ u t q, exec (.supervisorStart tenant) s = .next u ∧ t ∈ u.others ∧ t.tid = tenant ++ p.nextTid ∧ t.core = core ∧ t.pc = p.cfg.entry ∧
        t.stat = 1 ∧ t.tvec = p.cfg.tvec &&& ~~~(2 : Word) ∧ t.aspace = p.cfg.aspace &&& 0xFFF0007FFFFFF001 ∧ t.ctxa = p.cfg.ctxBase ∧ (t.cstate = .running ∨ t.cstate = .ready) ∧
        u.paddock tenant = some q ∧ q.started = true) ∧
    (∀ tenant p, s.paddock tenant = some p → (∀ t ∈ s.tasks, t.cstate = .free ∨ t.tenant ≠ tenant) →
      (∀ k, k < 16 → (s.stack k).tenant = some tenant → s.resettable tenant k = true) →
      ∃ u q, exec (.partitionReset tenant) s = .next u ∧ u.paddock tenant = some q ∧ q.feat = 0 ∧ q.committed = false ∧ q.restores = [] ∧
        (∀ kid, (q.kernel kid).held = false ∧ ((p.kernel kid).state ≠ .none → (q.kernel kid).gen = (p.kernel kid).gen)) ∧
        u.task.g = s.task.g ∧ u.task.pc = s.task.pc ∧ ∀ t ∈ u.tasks, t.tenant = tenant → t.cstate = .free ∨ t.tid = tenant ++ p.nextTid)

/-! ### Fetch, issue and the host -/

/-- R154, R157, R168, R171, R236, R287, R288, R327, R331, R359, R364, R365, R368, R377, R379: the fetch of a task sets the code bit of its frame, and traps (kind 8) where a mark
stands on its line; a core issues for the next slot that is ready, or whose stall may end, after the one it chose last; a late result changes nothing that an instruction
sees; the host reads and writes the bytes of memory, taking copies back, and no mark stands for what it writes, or its access is held; the
sideband reads the status image of a link. The doorbell page gives the FEAT bits offered, and none of them where the paddock was not
started; a debug register that is not open to a debugger reads 0 there and takes no write. What the host's accesses do is assumption 60;
that an access or a write past 2^39 ends in the fault outsideMemory is assumption 61 (DESIGN CHOICE). -/
def Obligations.FetchIssueHost : Prop :=
  ∀ (s : State), Canonical s →
    (∀ s1 ws pa e, s.task.cstate = .running → s.fetch = .ok (s1, ws) → s.check s.task.who { x := true } s.task.pc = .ok (.phys pa e) →
      ∃ u, exec .instructionFetch s = .next u ∧ u.isCode pa = true ∧
        u = { s with codeBits := u.codeBits, tlb := u.tlb, cores := u.cores, dir := u.dir, l2dirty := u.l2dirty } ∧ SameMemory s u) ∧
    (∀ pa e m, s.task.cstate = .running → s.check s.task.who { x := true } s.task.pc = .ok (.phys pa e) → s.haltered s.task.tid (pa / 64) = false →
      s.marks = [m] → m.line = pa / 64 →
      exec .instructionFetch s =
        .next (s.trap { kind := 8, info0 := s.task.pc, info1 := match m.tid with | some t => t.setWidth 64 | none => 0xFFFFFFFFFFFFFFFF })) ∧
    (∀ c t, (s.core c).gate ≤ s.clk → s.clocked (c / 8) = true → s.nextSlot c = some t → (∀ u ∈ s.tasks, u.tid = t.tid → u = t) →
      ∃ u, exec (.issue c) s = .next u ∧ u.task = { t with cstate := .running } ∧ u.grant = 1 ∧ (u.core c).last = t.slot ∧ t.core = c ∧
        (t.cstate = .running ∨ s.mayResume t = true) ∧ SameMemory s u) ∧
    (∀ c, (s.clk < (s.core c).gate ∨ s.clocked (c / 8) = false ∨ s.nextSlot c = none) → exec (.issue c) s = .next s) ∧
    (∀ tid, exec (.longLatencyResult tid) s = .next s) ∧
    (∀ pa n w, 2 ^ 39 < pa + n → (w = none ∨ ∃ l, w = some l ∧ l.length = n) →
      exec (.hostMemoryAccess (.memory pa) n w) s = .fault (.outsideMemory pa)) ∧
    (∀ pa l, 2 ^ 39 < pa + l.length → exec (.hostCodeWrite pa l) s = .fault (.outsideMemory pa)) ∧
    (∀ pa n, pa + n ≤ 2 ^ 39 → s.hostLinkUp = true → 0 < n → s.hostReach pa n = true →
      (s.hostWaits s.hostHeld pa n = false →
        ∃ u, exec (.hostMemoryAccess (.memory pa) n none) s = .next u ∧ u = { s with out := u.out } ∧ u.out.length = n ∧
          ∀ i, i < n → u.out[i]? = some (s.mem.byte (pa + i))) ∧
      (s.hostWaits s.hostHeld pa n = true → exec (.hostMemoryAccess (.memory pa) n none) s =
        .next { s with hostHeld := s.hostHeld ++ [{ pa := pa, n := n, write := none, since := s.clk }] })) ∧
    (∀ pa n l, pa + l.length ≤ 2 ^ 39 → s.hostLinkUp = true → l ≠ [] → s.hostReach pa l.length = true →
      let held : State := { s with hostHeld := s.hostHeld ++ [{ pa := pa, n := l.length, write := some l, since := s.clk }] }
      (s.hostWaits s.hostHeld pa l.length = true → exec (.hostMemoryAccess (.memory pa) n (some l)) s = .next held ∧
        (s.isCode pa = true → exec (.hostCodeWrite pa l) s = .next held)) ∧
      (s.hostWaits s.hostHeld pa l.length = false → (∀ x, pa / 64 ≤ x → x ≤ (pa + l.length - 1) / 64 → s.counterLine x = false) →
        let writes (i : Instr) : Prop := ∃ u, exec i s = .next u ∧ (∀ i, (hi : i < l.length) → u.mem.byte (pa + i) = l[i]) ∧
          (∀ a, a < pa ∨ pa + l.length ≤ a → u.mem.byte a = s.mem.byte a) ∧ u.marks = s.marks ∧ u.task.g = s.task.g ∧ u.task.pc = s.task.pc ∧
          (∀ c x, pa / 64 ≤ x → x ≤ (pa + l.length - 1) / 64 → (s.island (islandOf c)).state ≠ .hold → (u.line c x).present = false)
        writes (.hostMemoryAccess (.memory pa) n (some l)) ∧ (s.isCode pa = true → writes (.hostCodeWrite pa l)))) ∧
    (∀ n, (h : n < 17) → ∃ u, exec (.hostMemoryAccess (.link n) 8 none) s = .next u ∧ u = { s with out := u.out } ∧ u.out.length = 8 ∧
      let x : Word := BitVec.ofNat 64 (leBytes u.out)
      let l := s.links[n]
      x.extractLsb' 0 3 = (match l.state with | .down => 0 | .training => 1 | .up => 2 | .degraded => 3 | .quarantined => 4) ∧
        x.extractLsb' 3 5 = l.lanes ∧ x.getLsbD 8 = l.half ∧ x.extractLsb' 16 4 = l.cause ∧ x.extractLsb' 32 32 = l.retry) ∧
    (∀ tenant p (vf : BitVec 6) off n, s.hostLinkUp = true → s.paddock tenant = some p → p.cfg.vfs.getLsbD vf.toNat = true →
      ∃ u, exec (.hostMemoryAccess (.doorbell tenant vf off) n none) s = .next u ∧ u = { s with out := u.out } ∧ u.out.length = n ∧
        ∀ i, i < n → 0x0A0 ≤ off + i → off + i < 0x0B0 →
          u.out[i]? = some (if p.started = true then s.boot.offer.extractLsb' (8 * (off + i - 0x0A0)) 8 else 0)) ∧
    (∀ tenant core k r, regOf k = some r → s.regOpen tenant core r = false →
      (∀ l, exec (.hostMemoryAccess (.register tenant core k) 8 (some l)) s = .next s) ∧
      exec (.hostMemoryAccess (.register tenant core k) 8 none) s = .next { s with out := List.replicate 8 0 })

/-! ### Kernels -/

/-- R279 to R281, R286, R291 to R294, R360: LAUNCH of a loaded or running kernel appends the second line to its entry stage and delivers 0,
waits while the queue is full or a post that came before waits, and gives 3 of a draining or faulted kernel, 4 where a user launches none;
LAUNCH.drain, LAUNCH.stat and LAUNCH.abort drain a kernel (an empty one retires at once), report it, and fault it with its queues emptied; EMIT appends to a stage of the
task's own kernel. Each waits while no link leads to the kernel's gait controller. -/
def Obligations.KernelInstructions : Prop :=
  ∀ (o : Ops) (s : State) (p : Paddock) (a : Word), Canonical s → s.srcA o = .ok a → s.paddock s.task.tenant = some p →
    let tenant := s.task.tenant
    let ends (i : Instr) (b : State) (f : State → Prop) : Prop := Sends i o s b 0 ∧ (o.x.pd = false →
      ∃ t, exec i s = .next t ∧ Sys2Proof.Claims.RegTakes o s t 0 ∧ Advanced o s t ∧ SameMemory s t ∧ f t)
    let grown (t : State) (kid : BitVec 6) (g : Nat) (x : BitVec 512) (st : KState) : Prop :=
      ∃ q e, t.paddock tenant = some q ∧ ((q.kernel kid).stage g).queue = ((p.kernel kid).stage g).queue ++ [e] ∧ e.bytes = x ∧
        (q.kernel kid).state = st ∧ ∀ k, k ≠ kid → q.kernel k = p.kernel k
    (∀ lo hi kid, s.load {} a 64 64 = .ok lo → s.load {} (a + 64) 64 64 = .ok hi → s.task.posting = none →
      p.launchTarget (BitVec.ofNat 64 lo) = some kid →
      let k := p.kernel kid
      ((k.state = .draining ∨ k.state = .faulted) → Delivers (.launch o) o s s 3 0 false) ∧
      ((k.state = .loaded ∨ k.state = .running) → k.entry < k.stages.length →
        (s.kernelWay kid = false → o.x.pd = false → exec (.launch o) s = .next (s.stall .retry)) ∧
        (s.kernelWay kid = true → s.postFree tenant kid k.entry (.task s.task.tid) = true →
          ends (.launch o) (s.append tenant kid k.entry (.task s.task.tid) (s.entryOf (BitVec.ofNat 512 hi)) true) fun t =>
            grown t kid k.entry (BitVec.ofNat 512 hi) .running) ∧
        (s.kernelWay kid = true → s.postFree tenant kid k.entry (.task s.task.tid) = false → o.x.pd = false →
          ∃ t, exec (.launch o) s = .next t ∧ t.task.cstate = .waiting ∧ t.task.wait = .post kid k.entry false ∧ t.task.pc = s.task.pc ∧ SameMemory s t))) ∧
    (∀ lo hi, s.load {} a 64 64 = .ok lo → s.load {} (a + 64) 64 64 = .ok hi → s.task.posting = none →
      p.launchTarget (BitVec.ofNat 64 lo) = none → 
      (s.task.sup = false → Delivers (.launch o) o s s 4 0 false) ∧
      (∀ d bound, s.task.sup = true → s.task.die < 4 → readDecl (fun va n => s.load {} va n n) (BitVec.ofNat 64 lo) = .ok d → d.legal (!p.cfg.forbid) = true →
        s.storeUsed (BitVec.ofNat 2 s.task.die) + ((d.stages.map stageOf).map (·.cap)).sum ≤ 16384 →
        bindMin (d.stages.map stageOf) p.freeCores = some bound → (∃ kid, (p.kernel kid).held = false) → o.x.pd = false →
        ∃ t q kid, exec (.launch o) s = .next t ∧ Sys2Proof.Claims.RegTakes o s t 0 ∧ Advanced o s t ∧ SameMemory s t ∧ t.paddock tenant = some q ∧
          (p.kernel kid).held = false ∧ (q.kernel kid).state = .running ∧ (q.kernel kid).decl = BitVec.ofNat 64 lo ∧
          (q.kernel kid).gen = (p.kernel kid).gen + 1 ∧ (q.kernel kid).queued = 1)) ∧
    (p.named a = none → Delivers (.launchDrain o) o s s 5 0 false ∧ Delivers (.launchStat o) o s s 4 0 false ∧
      (s.task.sup = true → Delivers (.launchAbort o) o s s 5 0 false)) ∧
    NeedsSupervisor (.launchAbort o) s ∧
    (∀ kid, p.named a = some kid → s.kernelWay kid = false → o.x.pd = false → exec (.launchDrain o) s = .next (s.stall .retry) ∧
      exec (.launchStat o) s = .next (s.stall .retry) ∧ (s.task.sup = true → exec (.launchAbort o) s = .next (s.stall .retry))) ∧
    (∀ kid, p.named a = some kid → s.kernelWay kid = true →
      let k := p.kernel kid
      ((k.state = .draining ∨ k.state = .faulted) → Delivers (.launchDrain o) o s s 3 0 false) ∧
      ((k.state = .loaded ∨ k.state = .running) → ends (.launchDrain o) ((s.modKernel tenant kid fun k => { k with state := .draining }).retire tenant kid)
        fun t => ∃ q, t.paddock tenant = some q ∧ q.kernel kid = (if s.live tenant kid k.gen = 0 ∧ k.queued = 0 ∧ s.postsWait tenant kid = false
          then { state := .retired, gen := k.gen } else { k with state := .draining })) ∧
      (∃ v, Delivers (.launchStat o) o s s v 0 false ∧ v.extractLsb' 32 32 = BitVec.ofNat 32 k.queued ∧
        v.extractLsb' 8 24 = BitVec.ofNat 24 (s.live tenant kid k.gen) ∧
        (v.extractLsb' 0 3).toNat = (match k.state with | .loaded => 1 | .running => 2 | .draining => 3 | .faulted => 5 | _ => 4)) ∧
      (s.task.sup = true → k.state = .faulted → Delivers (.launchAbort o) o s s 3 0 false) ∧
      (s.task.sup = true → k.state ≠ .faulted → ends (.launchAbort o) (s.faultKernel tenant kid)
        fun t => ∃ q, t.paddock tenant = some q ∧ (q.kernel kid).state = .faulted ∧ (q.kernel kid).queued = 0)) ∧
    (s.task.kcur = 0 → Sys2Proof.Claims.IllegalOperand (.emit o) s) ∧
    (∀ b v kid, s.task.kcur ≠ 0 → s.srcB o = .ok b → s.task.ownKernel p = some kid → s.load {} a 64 64 = .ok v → s.task.posting = none →
      let k := p.kernel kid
      (k.stages.length ≤ b.toNat → Sys2Proof.Claims.IllegalOperand (.emit o) s) ∧
      (b.toNat < k.stages.length → k.open = true → s.kernelWay kid = true →
        (s.postFree tenant kid b.toNat (.task s.task.tid) = true →
          ends (.emit o) (s.append tenant kid b.toNat (.task s.task.tid) (s.entryOf (BitVec.ofNat 512 v)) false) fun t =>
            grown t kid b.toNat (BitVec.ofNat 512 v) k.state) ∧
        (s.postFree tenant kid b.toNat (.task s.task.tid) = false → o.x.pd = false →
          ∃ t, exec (.emit o) s = .next t ∧ t.task.cstate = .waiting ∧ t.task.wait = .post kid b.toNat false ∧ t.task.pc = s.task.pc ∧ SameMemory s t)))

/-- R281, R282, R365, R379, R383: the doorbell page of a virtual function: a launch joins its buffer, past 256 records it is discarded with
a record of type 4 and code 6, for which it waits; the device takes the oldest one, once the writes posted before it have performed, and
appends its entry, in its turn and where there is room; a drain drains the kernel and selects its handle; a
select selects; the FEAT mask is committed once; the fault queue's header address is kept; a load places a kernel in a free slot. -/
def Obligations.Doorbells : Prop :=
  ∀ (s : State) (tenant : BitVec 12) (vf : BitVec 6) (p : Paddock), Canonical s → p.cfg.tenant = tenant →
    let v := vf.toNat
    let after (i : Instr) (f : Paddock → Prop) : Prop := ∃ u q, exec i s = .next u ∧ u.paddock tenant = some q ∧ f q ∧ SameMemory s u ∧
      u.task = s.task ∧ u.others = s.others
    (s.doorbell tenant v true = some p →
      (∀ r, (p.vf v).launches.length < 256 → after (.doorbellLaunch tenant vf r) fun q => (q.vf v).launches = (p.vf v).launches ++ [(r, s.clk)]) ∧
      (∀ r, 256 ≤ (p.vf v).launches.length → 64 ≤ (p.vf v).buffer.length → exec (.doorbellLaunch tenant vf r) s = .next s) ∧
      (∀ r, 256 ≤ (p.vf v).launches.length → (p.vf v).buffer.length < 64 → after (.doorbellLaunch tenant vf r) fun q => (q.vf v).launches = (p.vf v).launches ∧
        ∃ x, (q.vf v).buffer = (p.vf v).buffer ++ [x] ∧ x.extractLsb' 0 8 = 4 ∧ x.extractLsb' 8 8 = 6) ∧
      (∀ kh, after (.doorbellSelect tenant vf kh) fun q => (q.vf v).selected = kh) ∧
      (∀ kh kid, p.named kh = some kid → ((p.kernel kid).state = .loaded ∨ (p.kernel kid).state = .running) →
        after (.doorbellDrain tenant vf kh) fun q => (q.vf v).selected = kh ∧ (q.kernel kid).state =
          if s.live tenant kid (p.kernel kid).gen = 0 ∧ (p.kernel kid).queued = 0 ∧ s.postsWait tenant kid = false then .retired else .draining)) ∧
    (s.doorbell tenant v false = some p →
      (∀ mask, p.committed = false → after (.featMaskCommit tenant vf mask) fun q => q.feat = s.boot.offer &&& mask ∧ q.committed = true) ∧
      (∀ mask, p.committed = true → exec (.featMaskCommit tenant vf mask) s = .next s) ∧
      (∀ addr, after (.faultQueueHeaderWrite tenant vf addr) fun q => (q.vf v).header = addr)) ∧
    (s.paddock tenant = some p →
      (∀ x c rest, (p.vf v).launches = (x, c) :: rest → s.hostPending tenant c = true → exec (.doorbellRecordTake tenant vf) s = .next s) ∧
      (∀ x c rest kid, (p.vf v).launches = (x, c) :: rest → s.hostPending tenant c = false → (p.vf v).stalled = none → p.launchTarget (x.extractLsb' 0 64) = some kid →
        ((p.kernel kid).state = .loaded ∨ (p.kernel kid).state = .running) → (p.kernel kid).entry < (p.kernel kid).stages.length →
        (s.postFree tenant kid (p.kernel kid).entry (.vf v) = true →
          after (.doorbellRecordTake tenant vf) fun q => (q.vf v).launches = rest ∧ (q.kernel kid).state = .running ∧
            ∃ e, ((q.kernel kid).stage (p.kernel kid).entry).queue = ((p.kernel kid).stage (p.kernel kid).entry).queue ++ [e] ∧
              e.bytes = x.extractLsb' 512 512) ∧
        (s.postFree tenant kid (p.kernel kid).entry (.vf v) = false →
          after (.doorbellRecordTake tenant vf) fun q => (q.vf v).launches = (x, c) :: rest ∧ (q.vf v).stalled = some (kid, (p.kernel kid).gen))) ∧
      (∀ decl d bound, p.launchTarget decl = none → s.hostPending tenant s.clk = false →
        readDecl ((s.noteDecl (p.vfWho v) decl).agentRead (p.vfWho v)) decl = .ok d → d.legal (!p.cfg.forbid) = true →
        s.storeUsed (BitVec.ofNat 2 (p.vfWho v).die) + ((d.stages.map stageOf).map (·.cap)).sum ≤ 16384 →
        bindMin (d.stages.map stageOf) p.freeCores = some bound → (∃ kid, (p.kernel kid).held = false) →
        after (.kernelLoad tenant vf decl) fun q => ∃ kid, (p.kernel kid).held = false ∧ (q.kernel kid).state = .loaded ∧ (q.kernel kid).decl = decl ∧
          (q.kernel kid).gen = (p.kernel kid).gen + 1 ∧ (q.kernel kid).stages = bound ∧ ∀ k, k ≠ kid → q.kernel k = p.kernel k))

/-- R279, R283, R285: the head entry of a stage becomes an activation of its handler on a bound core with a free slot, the entry in g1 to
g8, KCUR in g9, in the lowest free context area; a period that ends gives a needy stage a free core of the pool; a core on its way binds
once no activation of its old stage is left on it; a drained kernel retires and keeps its generation. -/
def Obligations.KernelScheduling : Prop :=
  ∀ (s : State) (tenant : BitVec 12) (kid : BitVec 6) (p : Paddock), Canonical s → s.paddock tenant = some p →
    let k := p.kernel kid
    let after (i : Instr) (f : State → Paddock → Prop) : Prop := ∃ u q, exec i s = .next u ∧ u.paddock tenant = some q ∧ f u q
    (∀ (g : BitVec 4) e rest core area, (k.stage g.toNat).queue = e :: rest → g.toNat < k.stages.length → k.open = true →
      (k.stage g.toNat).order.find? (fun c => (s.freeSlot c).isSome) = some core → s.freeArea p k = some area →
      s.route tenant k.die.toNat (core / 2304) = true →
      after (.activationPlace tenant kid g) fun u q => ((q.kernel kid).stage g.toNat).queue = rest ∧ ((q.kernel kid).stage g.toNat).lastCore = some core ∧
        ∃ t ∈ u.others, t.tid = p.cfg.tenant ++ p.nextTid ∧ t.core = core ∧ t.cstate = .running ∧ t.pc = (k.stage g.toNat).handler ∧ t.ctxa = area ∧
          t.stat = 0 ∧ t.aspace = k.aspace &&& 0xFFF0007FFFFFF001 ∧ t.tvec = (if k.tvec = 0 then p.cfg.tvec else k.tvec) &&& ~~~(2 : Word) ∧
          t.kcur = (k.gen ++ 0#36 ++ g ++ 0#2 ++ kid : BitVec 64) ∧ t.rd 9 = t.kcur ∧
          ∀ n, n < 8 → t.rd (BitVec.ofNat 5 (n + 1)) = e.bytes.extractLsb' (64 * n) 64) ∧
    (∀ g c rest, k.open = true → 1024 * (k.period + 1) ≤ s.clk → k.loadedAt < 1024 * k.period → k.stages = [g] → g.queue ≠ [] → g.takesCore = true →
      p.freeCores = c :: rest →
      after (.gaitPeriodEnd tenant kid) fun u q => (q.kernel kid).period = k.period + 1 ∧ SameMemory s u ∧
        ∃ x, (q.kernel kid).stages = [x] ∧ x.cores = g.cores ++ [c] ∧ x.queue = g.queue ∧ x.busy = true) ∧
    (∀ g core old, k.stages = [g] → g.joining.find? (·.1 == core) = some (core, old) →
      (s.activationsOn tenant core kid k.gen old = 0 → after (.gaitCoreRebind tenant kid core) fun u q => SameMemory s u ∧
        ∃ x, (q.kernel kid).stages = [x] ∧ x.cores = g.cores ++ [core] ∧ ∀ y, y ∈ x.joining ↔ y ∈ g.joining ∧ y.1 ≠ core) ∧
      (0 < s.activationsOn tenant core kid k.gen old → exec (.gaitCoreRebind tenant kid core) s = .next s)) ∧
    (s.live tenant kid k.gen = 0 → ((k.state = .draining ∧ k.queued = 0 ∧ s.postsWait tenant kid = false) ∨ k.state = .faulted) →
      after (.kernelRetire tenant kid) fun u q => SameMemory s u ∧ (q.kernel kid).state = .retired ∧ (q.kernel kid).gen = k.gen ∧
        (q.kernel kid).stages = [] ∧ ∀ n, n ≠ kid → q.kernel n = p.kernel n)
end

