-- ==== Sys2Proof/Laws/Smap.lean ====
section
/-! SUPPORT. Laws of sparse maps and of memory: a read after a write, and that every operation keeps the canonical form. -/

namespace Sys2Proof.Machine

variable {α : Type} [DecidableEq α] {d : α}

omit [DecidableEq α] in
theorem smapFrom_mono {lo lo' : Nat} (h : lo' ≤ lo) {m : Smap α} (hm : smapFrom lo m = true) : smapFrom lo' m = true := by
  cases m with
  | nil => rfl
  | cons e m => simp only [smapFrom, Bool.and_eq_true, decide_eq_true_eq] at hm ⊢; exact ⟨by omega, hm.2⟩

omit [DecidableEq α] in
/-- Below every key of a map it reads as an unlisted key does. -/
theorem smapGet_below {lo k : Nat} (h : k < lo) {m : Smap α} (hm : smapFrom lo m = true) : smapGet d m k = d := by
  cases m with
  | nil => rfl
  | cons e m =>
    simp only [smapFrom, Bool.and_eq_true, decide_eq_true_eq] at hm
    simp only [smapGet]
    rw [if_neg (by omega), if_pos (by omega)]

theorem smapSet_from {lo k : Nat} (hk : lo ≤ k) (x : α) {m : Smap α} (hm : smapFrom lo m = true) :
    smapFrom lo (smapSet d m k x) = true := by
  induction m generalizing lo with
  | nil => by_cases hx : x = d <;> simp [smapSet, hx, smapFrom, hk]
  | cons e m ih =>
    simp only [smapFrom, Bool.and_eq_true, decide_eq_true_eq] at hm
    simp only [smapSet]
    split
    · split
      · simp [smapFrom, hm]
      · simp only [smapFrom, Bool.and_eq_true, decide_eq_true_eq]
        exact ⟨hk, by omega, hm.2⟩
    · split
      · split
        · exact smapFrom_mono (by omega) hm.2
        · simp only [smapFrom, Bool.and_eq_true, decide_eq_true_eq]
          next h _ => subst h; exact ⟨hk, hm.2⟩
      · simp only [smapFrom, Bool.and_eq_true, decide_eq_true_eq]
        exact ⟨hm.1, ih (by omega) hm.2⟩

theorem smapSet_values (k : Nat) (x : α) {m : Smap α} (hm : ∀ e ∈ m, e.2 ≠ d) : ∀ e ∈ smapSet d m k x, e.2 ≠ d := by
  intro e' he'
  induction m with
  | nil =>
    by_cases hx : x = d
    · simp [smapSet, hx] at he'
    · simp only [smapSet, if_neg hx, List.mem_singleton] at he'; subst he'; exact hx
  | cons e m ih =>
    have hm' : ∀ e ∈ m, e.2 ≠ d := fun f hf => hm f (List.mem_cons_of_mem _ hf)
    simp only [smapSet] at he'
    split at he'
    · split at he'
      · exact hm e' he'
      · next hx =>
        obtain h | h := List.mem_cons.mp he'
        · subst h; exact hx
        · exact hm e' h
    · split at he'
      · split at he'
        · exact hm' e' he'
        · next hx =>
          obtain h | h := List.mem_cons.mp he'
          · subst h; exact hx
          · exact hm' e' h
      · obtain h | h := List.mem_cons.mp he'
        · exact h ▸ hm e List.mem_cons_self
        · exact ih hm' h

theorem smapWf_iff {m : Smap α} : smapWf d m = true ↔ smapFrom 0 m = true ∧ ∀ e ∈ m, e.2 ≠ d := by
  simp [smapWf, List.all_eq_true]

/-- A write keeps the canonical form. -/
theorem smapSet_wf {m : Smap α} (hm : smapWf d m = true) (k : Nat) (x : α) : smapWf d (smapSet d m k x) = true := by
  rw [smapWf_iff] at hm ⊢
  exact ⟨smapSet_from (Nat.zero_le k) x hm.1, smapSet_values k x hm.2⟩

theorem smapMap_from (f : Nat → α → α) {lo : Nat} {m : Smap α} (hm : smapFrom lo m = true) : smapFrom lo (smapMap d m f) = true := by
  induction m generalizing lo with
  | nil => rfl
  | cons e m ih =>
    simp only [smapFrom, Bool.and_eq_true, decide_eq_true_eq] at hm
    simp only [smapMap, List.filterMap_cons]
    split
    · exact smapFrom_mono (by omega) (ih hm.2)
    · next h =>
      split at h
      · cases h
      · cases h
        simp only [smapFrom, Bool.and_eq_true, decide_eq_true_eq]
        exact ⟨hm.1, ih hm.2⟩

/-- Changing every value keeps the canonical form. -/
theorem smapMap_wf (f : Nat → α → α) {m : Smap α} (hm : smapWf d m = true) : smapWf d (smapMap d m f) = true := by
  rw [smapWf_iff] at hm ⊢
  refine ⟨smapMap_from f hm.1, fun e he => ?_⟩
  simp only [smapMap, List.mem_filterMap] at he
  obtain ⟨a, -, h⟩ := he
  split at h
  · cases h
  · cases h; assumption

omit [DecidableEq α] in
theorem smapFilter_from (p : Nat × α → Bool) {lo : Nat} {m : Smap α} (hm : smapFrom lo m = true) : smapFrom lo (m.filter p) = true := by
  induction m generalizing lo with
  | nil => rfl
  | cons e m ih =>
    simp only [smapFrom, Bool.and_eq_true, decide_eq_true_eq] at hm
    simp only [List.filter_cons]
    split
    · simp only [smapFrom, Bool.and_eq_true, decide_eq_true_eq]; exact ⟨hm.1, ih hm.2⟩
    · exact smapFrom_mono (by omega) (ih hm.2)

/-- Leaving entries out keeps the canonical form. -/
theorem smapFilter_wf (p : Nat × α → Bool) {m : Smap α} (hm : smapWf d m = true) : smapWf d (m.filter p) = true := by
  rw [smapWf_iff] at hm ⊢
  exact ⟨smapFilter_from p hm.1, fun e he => hm.2 e (List.mem_filter.mp he).1⟩

/-- A read of the key written. -/
theorem smapGet_set_self {lo : Nat} {m : Smap α} (hm : smapFrom lo m = true) (k : Nat) (x : α) :
    smapGet d (smapSet d m k x) k = x := by
  induction m generalizing lo with
  | nil => by_cases hx : x = d <;> simp [smapSet, hx, smapGet]
  | cons e m ih =>
    simp only [smapFrom, Bool.and_eq_true, decide_eq_true_eq] at hm
    simp only [smapSet]
    split
    · split
      · next h hx => simp only [smapGet]; rw [if_neg (by omega), if_pos h]; exact hx.symm
      · simp [smapGet]
    · split
      · next h =>
        split
        · next hx => rw [smapGet_below (by omega) hm.2]; exact hx.symm
        · simp [smapGet]
      · simp only [smapGet]
        rw [if_neg (by assumption), if_neg (by omega)]
        exact ih hm.2

/-- A read of another key than the one written. -/
theorem smapGet_set_ne {lo : Nat} {m : Smap α} (hm : smapFrom lo m = true) {k j : Nat} (h : j ≠ k) (x : α) :
    smapGet d (smapSet d m k x) j = smapGet d m j := by
  induction m generalizing lo with
  | nil => by_cases hx : x = d <;> simp [smapSet, hx, smapGet, h]
  | cons e m ih =>
    simp only [smapFrom, Bool.and_eq_true, decide_eq_true_eq] at hm
    simp only [smapSet]
    split
    · next hk =>
      split
      · rfl
      · simp only [smapGet]
        rw [if_neg h]
        split
        · next hj => rw [if_neg (by omega), if_pos (by omega)]
        · rfl
    · split
      · next hk =>
        subst hk
        split
        · simp only [smapGet]
          rw [if_neg h]
          split
          · next hj => rw [smapGet_below (by omega) hm.2]
          · rfl
        · simp [smapGet, h]
      · simp only [smapGet]
        rw [ih hm.2]

omit [DecidableEq α] in
/-- What a map reads as is what an unlisted key reads as, or a listed value. -/
theorem smapGet_cases (d : α) (m : Smap α) (k : Nat) : smapGet d m k = d ∨ (k, smapGet d m k) ∈ m := by
  induction m with
  | nil => left; rfl
  | cons e m ih =>
    simp only [smapGet]
    split
    · next h => right; subst h; simp
    · split
      · left; rfl
      · exact ih.imp id (List.mem_cons_of_mem _)

/-- A read after every value has been changed by a function that keeps what an unlisted key reads as. -/
theorem smapGet_map {lo : Nat} {m : Smap α} (hm : smapFrom lo m = true) (f : Nat → α → α) (hf : ∀ k, f k d = d) (k : Nat) :
    smapGet d (smapMap d m f) k = f k (smapGet d m k) := by
  induction m generalizing lo with
  | nil => simp [smapMap, smapGet, hf]
  | cons e m ih =>
    simp only [smapFrom, Bool.and_eq_true, decide_eq_true_eq] at hm
    have hr : smapFrom (e.1 + 1) (smapMap d m f) = true := smapMap_from f hm.2
    have he : smapMap d (e :: m) f = if f e.1 e.2 = d then smapMap d m f else (e.1, f e.1 e.2) :: smapMap d m f := by
      simp only [smapMap, List.filterMap_cons]; split <;> simp_all
    rw [he]
    simp only [smapGet]
    split
    · next hx =>
      split
      · next h => subst h; rw [smapGet_below (by omega) hr, hx]
      · split
        · rw [smapGet_below (by omega) hr, hf]
        · exact ih hm.2
    · simp only [smapGet]
      split
      · next h => subst h; rfl
      · split
        · rw [hf]
        · exact ih hm.2

/-! ### Memory -/

/-- Reset memory has the canonical form. -/
theorem memory_nil_wf : Memory.wf [] := rfl

theorem setByte_wf {m : Memory} (hm : m.wf) (a : Nat) (b : Byte) : (m.setByte a b).wf := smapSet_wf hm a b

/-- Every write of bytes keeps the canonical form. -/
theorem write_wf {m : Memory} (hm : m.wf) (a n v : Nat) : (m.write a n v).wf := by
  induction n generalizing m a v with
  | zero => exact hm
  | succ n ih => exact ih (setByte_wf hm a _) (a + 1) (v / 256)

theorem byte_setByte {m : Memory} (hm : m.wf) (a : Nat) (b : Byte) (c : Nat) :
    (m.setByte a b).byte c = if c = a then b else m.byte c := by
  have h := (smapWf_iff.mp hm).1
  split
  · next e => subst e; exact smapGet_set_self h c b
  · next e => exact smapGet_set_ne h e b

/-- The bytes after a write: the written ones are those of the value, little-endian; every other byte is as before. -/
theorem byte_write {m : Memory} (hm : m.wf) (a n v c : Nat) :
    (m.write a n v).byte c = if a ≤ c ∧ c < a + n then BitVec.ofNat 8 (v / 256 ^ (c - a)) else m.byte c := by
  induction n generalizing m a v with
  | zero => rw [if_neg (by omega)]; rfl
  | succ n ih =>
    rw [Memory.write, ih (setByte_wf hm a _), byte_setByte hm]
    by_cases h : a + 1 ≤ c ∧ c < a + 1 + n
    · rw [if_pos h, if_pos (by omega), Nat.div_div_eq_div_mul, show c - a = (c - (a + 1)) + 1 by omega, pow_succ, Nat.mul_comm]
    · rw [if_neg h]
      by_cases e : c = a
      · subst e; rw [if_pos rfl, if_pos (by omega)]; simp
      · rw [if_neg e, if_neg (by omega)]

/-- A read of as many bytes as were written gives the value's low bytes. -/
theorem read_write {m : Memory} (hm : m.wf) (a n v : Nat) : (m.write a n v).read a n = v % 256 ^ n := by
  suffices h : ∀ k j, j + k = n → (m.write a n v).read (a + j) k = v / 256 ^ j % 256 ^ k by simpa using h n 0 (by omega)
  intro k
  induction k with
  | zero => intro j _; simp [Memory.read, Nat.mod_one]
  | succ k ih =>
    intro j hj
    rw [Memory.read, byte_write hm, if_pos (by omega), Nat.add_assoc, ih (j + 1) (by omega), BitVec.toNat_ofNat,
      show a + j - a = j by omega, pow_succ 256 j, ← Nat.div_div_eq_div_mul, show 256 ^ (k + 1) = 256 * 256 ^ k by ring,
      @Nat.mod_mul 256 (256 ^ k)]

end Sys2Proof.Machine
end

