-- ==== Sys2Proof/Laws/State.lean ====
section
/-! SUPPORT. One lemma per field for each shared update of the state and of a task, so that no proof unfolds a record update. -/

namespace Sys2Proof.Machine

open Sys2Proof

/-! ### `State.setTask`, `State.setCore` and `State.setCluster` -/

@[simp] theorem State.setTask_clk (s : State) (t : Task) : (s.setTask t).clk = s.clk := rfl
@[simp] theorem State.setTask_boot (s : State) (t : Task) : (s.setTask t).boot = s.boot := rfl
@[simp] theorem State.setTask_mem (s : State) (t : Task) : (s.setTask t).mem = s.mem := rfl
@[simp] theorem State.setTask_scratch (s : State) (t : Task) : (s.setTask t).scratch = s.scratch := rfl
@[simp] theorem State.setTask_cores (s : State) (t : Task) : (s.setTask t).cores = s.cores := rfl
@[simp] theorem State.setTask_clusters (s : State) (t : Task) : (s.setTask t).clusters = s.clusters := rfl
@[simp] theorem State.setTask_dramStacks (s : State) (t : Task) : (s.setTask t).dramStacks = s.dramStacks := rfl
@[simp] theorem State.setTask_links (s : State) (t : Task) : (s.setTask t).links = s.links := rfl
@[simp] theorem State.setTask_islands (s : State) (t : Task) : (s.setTask t).islands = s.islands := rfl
@[simp] theorem State.setTask_routes (s : State) (t : Task) : (s.setTask t).routes = s.routes := rfl
@[simp] theorem State.setTask_peerTx (s : State) (t : Task) : (s.setTask t).peerTx = s.peerTx := rfl
@[simp] theorem State.setTask_peerRx (s : State) (t : Task) : (s.setTask t).peerRx = s.peerRx := rfl
@[simp] theorem State.setTask_routerBits (s : State) (t : Task) : (s.setTask t).routerBits = s.routerBits := rfl
@[simp] theorem State.setTask_drops (s : State) (t : Task) : (s.setTask t).drops = s.drops := rfl
@[simp] theorem State.setTask_admitted (s : State) (t : Task) : (s.setTask t).admitted = s.admitted := rfl
@[simp] theorem State.setTask_farrier (s : State) (t : Task) : (s.setTask t).farrier = s.farrier := rfl
@[simp] theorem State.setTask_dir (s : State) (t : Task) : (s.setTask t).dir = s.dir := rfl
@[simp] theorem State.setTask_l3 (s : State) (t : Task) : (s.setTask t).l3 = s.l3 := rfl
@[simp] theorem State.setTask_l2dirty (s : State) (t : Task) : (s.setTask t).l2dirty = s.l2dirty := rfl
@[simp] theorem State.setTask_poison (s : State) (t : Task) : (s.setTask t).poison = s.poison := rfl
@[simp] theorem State.setTask_halters (s : State) (t : Task) : (s.setTask t).halters = s.halters := rfl
@[simp] theorem State.setTask_codeBits (s : State) (t : Task) : (s.setTask t).codeBits = s.codeBits := rfl
@[simp] theorem State.setTask_marks (s : State) (t : Task) : (s.setTask t).marks = s.marks := rfl
@[simp] theorem State.setTask_tlb (s : State) (t : Task) : (s.setTask t).tlb = s.tlb := rfl
@[simp] theorem State.setTask_walkCache (s : State) (t : Task) : (s.setTask t).walkCache = s.walkCache := rfl
@[simp] theorem State.setTask_groupTab (s : State) (t : Task) : (s.setTask t).groupTab = s.groupTab := rfl
@[simp] theorem State.setTask_mailboxes (s : State) (t : Task) : (s.setTask t).mailboxes = s.mailboxes := rfl
@[simp] theorem State.setTask_tracePorts (s : State) (t : Task) : (s.setTask t).tracePorts = s.tracePorts := rfl
@[simp] theorem State.setTask_heldAdds (s : State) (t : Task) : (s.setTask t).heldAdds = s.heldAdds := rfl
@[simp] theorem State.setTask_recent (s : State) (t : Task) : (s.setTask t).recent = s.recent := rfl
@[simp] theorem State.setTask_hostHeld (s : State) (t : Task) : (s.setTask t).hostHeld = s.hostHeld := rfl
@[simp] theorem State.setTask_paddocks (s : State) (t : Task) : (s.setTask t).paddocks = s.paddocks := rfl
@[simp] theorem State.setTask_task (s : State) (t : Task) : (s.setTask t).task = t := rfl
@[simp] theorem State.setTask_others (s : State) (t : Task) : (s.setTask t).others = s.others := rfl
@[simp] theorem State.setTask_agenda (s : State) (t : Task) : (s.setTask t).agenda = s.agenda := rfl
@[simp] theorem State.setTask_grant (s : State) (t : Task) : (s.setTask t).grant = s.grant := rfl
@[simp] theorem State.setTask_free (s : State) (t : Task) : (s.setTask t).free = s.free := rfl
@[simp] theorem State.setTask_out (s : State) (t : Task) : (s.setTask t).out = s.out := rfl
@[simp] theorem State.setTask_core (s : State) (t : Task) (k : Nat) : (s.setTask t).core k = s.core k := rfl
@[simp] theorem State.setTask_cluster (s : State) (t : Task) (k : Nat) : (s.setTask t).cluster k = s.cluster k := rfl
@[simp] theorem State.setCore_clk (s : State) (c : Nat) (x : Core) : (s.setCore c x).clk = s.clk := rfl
@[simp] theorem State.setCore_boot (s : State) (c : Nat) (x : Core) : (s.setCore c x).boot = s.boot := rfl
@[simp] theorem State.setCore_mem (s : State) (c : Nat) (x : Core) : (s.setCore c x).mem = s.mem := rfl
@[simp] theorem State.setCore_scratch (s : State) (c : Nat) (x : Core) : (s.setCore c x).scratch = s.scratch := rfl
@[simp] theorem State.setCore_cores (s : State) (c : Nat) (x : Core) : (s.setCore c x).cores = smapSet {} s.cores c x := rfl
@[simp] theorem State.setCore_clusters (s : State) (c : Nat) (x : Core) : (s.setCore c x).clusters = s.clusters := rfl
@[simp] theorem State.setCore_dramStacks (s : State) (c : Nat) (x : Core) : (s.setCore c x).dramStacks = s.dramStacks := rfl
@[simp] theorem State.setCore_links (s : State) (c : Nat) (x : Core) : (s.setCore c x).links = s.links := rfl
@[simp] theorem State.setCore_islands (s : State) (c : Nat) (x : Core) : (s.setCore c x).islands = s.islands := rfl
@[simp] theorem State.setCore_routes (s : State) (c : Nat) (x : Core) : (s.setCore c x).routes = s.routes := rfl
@[simp] theorem State.setCore_peerTx (s : State) (c : Nat) (x : Core) : (s.setCore c x).peerTx = s.peerTx := rfl
@[simp] theorem State.setCore_peerRx (s : State) (c : Nat) (x : Core) : (s.setCore c x).peerRx = s.peerRx := rfl
@[simp] theorem State.setCore_routerBits (s : State) (c : Nat) (x : Core) : (s.setCore c x).routerBits = s.routerBits := rfl
@[simp] theorem State.setCore_drops (s : State) (c : Nat) (x : Core) : (s.setCore c x).drops = s.drops := rfl
@[simp] theorem State.setCore_admitted (s : State) (c : Nat) (x : Core) : (s.setCore c x).admitted = s.admitted := rfl
@[simp] theorem State.setCore_farrier (s : State) (c : Nat) (x : Core) : (s.setCore c x).farrier = s.farrier := rfl
@[simp] theorem State.setCore_dir (s : State) (c : Nat) (x : Core) : (s.setCore c x).dir = s.dir := rfl
@[simp] theorem State.setCore_l3 (s : State) (c : Nat) (x : Core) : (s.setCore c x).l3 = s.l3 := rfl
@[simp] theorem State.setCore_l2dirty (s : State) (c : Nat) (x : Core) : (s.setCore c x).l2dirty = s.l2dirty := rfl
@[simp] theorem State.setCore_poison (s : State) (c : Nat) (x : Core) : (s.setCore c x).poison = s.poison := rfl
@[simp] theorem State.setCore_halters (s : State) (c : Nat) (x : Core) : (s.setCore c x).halters = s.halters := rfl
@[simp] theorem State.setCore_codeBits (s : State) (c : Nat) (x : Core) : (s.setCore c x).codeBits = s.codeBits := rfl
@[simp] theorem State.setCore_marks (s : State) (c : Nat) (x : Core) : (s.setCore c x).marks = s.marks := rfl
@[simp] theorem State.setCore_tlb (s : State) (c : Nat) (x : Core) : (s.setCore c x).tlb = s.tlb := rfl
@[simp] theorem State.setCore_walkCache (s : State) (c : Nat) (x : Core) : (s.setCore c x).walkCache = s.walkCache := rfl
@[simp] theorem State.setCore_groupTab (s : State) (c : Nat) (x : Core) : (s.setCore c x).groupTab = s.groupTab := rfl
@[simp] theorem State.setCore_mailboxes (s : State) (c : Nat) (x : Core) : (s.setCore c x).mailboxes = s.mailboxes := rfl
@[simp] theorem State.setCore_tracePorts (s : State) (c : Nat) (x : Core) : (s.setCore c x).tracePorts = s.tracePorts := rfl
@[simp] theorem State.setCore_heldAdds (s : State) (c : Nat) (x : Core) : (s.setCore c x).heldAdds = s.heldAdds := rfl
@[simp] theorem State.setCore_recent (s : State) (c : Nat) (x : Core) : (s.setCore c x).recent = s.recent := rfl
@[simp] theorem State.setCore_hostHeld (s : State) (c : Nat) (x : Core) : (s.setCore c x).hostHeld = s.hostHeld := rfl
@[simp] theorem State.setCore_paddocks (s : State) (c : Nat) (x : Core) : (s.setCore c x).paddocks = s.paddocks := rfl
@[simp] theorem State.setCore_task (s : State) (c : Nat) (x : Core) : (s.setCore c x).task = s.task := rfl
@[simp] theorem State.setCore_others (s : State) (c : Nat) (x : Core) : (s.setCore c x).others = s.others := rfl
@[simp] theorem State.setCore_agenda (s : State) (c : Nat) (x : Core) : (s.setCore c x).agenda = s.agenda := rfl
@[simp] theorem State.setCore_grant (s : State) (c : Nat) (x : Core) : (s.setCore c x).grant = s.grant := rfl
@[simp] theorem State.setCore_free (s : State) (c : Nat) (x : Core) : (s.setCore c x).free = s.free := rfl
@[simp] theorem State.setCore_out (s : State) (c : Nat) (x : Core) : (s.setCore c x).out = s.out := rfl
@[simp] theorem State.setCore_cluster (s : State) (c : Nat) (x : Core) (k : Nat) : (s.setCore c x).cluster k = s.cluster k := rfl
@[simp] theorem State.setCluster_clk (s : State) (c : Nat) (x : Cluster) : (s.setCluster c x).clk = s.clk := rfl
@[simp] theorem State.setCluster_boot (s : State) (c : Nat) (x : Cluster) : (s.setCluster c x).boot = s.boot := rfl
@[simp] theorem State.setCluster_mem (s : State) (c : Nat) (x : Cluster) : (s.setCluster c x).mem = s.mem := rfl
@[simp] theorem State.setCluster_scratch (s : State) (c : Nat) (x : Cluster) : (s.setCluster c x).scratch = s.scratch := rfl
@[simp] theorem State.setCluster_cores (s : State) (c : Nat) (x : Cluster) : (s.setCluster c x).cores = s.cores := rfl
@[simp] theorem State.setCluster_clusters (s : State) (c : Nat) (x : Cluster) : (s.setCluster c x).clusters = smapSet {} s.clusters c x := rfl
@[simp] theorem State.setCluster_dramStacks (s : State) (c : Nat) (x : Cluster) : (s.setCluster c x).dramStacks = s.dramStacks := rfl
@[simp] theorem State.setCluster_links (s : State) (c : Nat) (x : Cluster) : (s.setCluster c x).links = s.links := rfl
@[simp] theorem State.setCluster_islands (s : State) (c : Nat) (x : Cluster) : (s.setCluster c x).islands = s.islands := rfl
@[simp] theorem State.setCluster_routes (s : State) (c : Nat) (x : Cluster) : (s.setCluster c x).routes = s.routes := rfl
@[simp] theorem State.setCluster_peerTx (s : State) (c : Nat) (x : Cluster) : (s.setCluster c x).peerTx = s.peerTx := rfl
@[simp] theorem State.setCluster_peerRx (s : State) (c : Nat) (x : Cluster) : (s.setCluster c x).peerRx = s.peerRx := rfl
@[simp] theorem State.setCluster_routerBits (s : State) (c : Nat) (x : Cluster) : (s.setCluster c x).routerBits = s.routerBits := rfl
@[simp] theorem State.setCluster_drops (s : State) (c : Nat) (x : Cluster) : (s.setCluster c x).drops = s.drops := rfl
@[simp] theorem State.setCluster_admitted (s : State) (c : Nat) (x : Cluster) : (s.setCluster c x).admitted = s.admitted := rfl
@[simp] theorem State.setCluster_farrier (s : State) (c : Nat) (x : Cluster) : (s.setCluster c x).farrier = s.farrier := rfl
@[simp] theorem State.setCluster_dir (s : State) (c : Nat) (x : Cluster) : (s.setCluster c x).dir = s.dir := rfl
@[simp] theorem State.setCluster_l3 (s : State) (c : Nat) (x : Cluster) : (s.setCluster c x).l3 = s.l3 := rfl
@[simp] theorem State.setCluster_l2dirty (s : State) (c : Nat) (x : Cluster) : (s.setCluster c x).l2dirty = s.l2dirty := rfl
@[simp] theorem State.setCluster_poison (s : State) (c : Nat) (x : Cluster) : (s.setCluster c x).poison = s.poison := rfl
@[simp] theorem State.setCluster_halters (s : State) (c : Nat) (x : Cluster) : (s.setCluster c x).halters = s.halters := rfl
@[simp] theorem State.setCluster_codeBits (s : State) (c : Nat) (x : Cluster) : (s.setCluster c x).codeBits = s.codeBits := rfl
@[simp] theorem State.setCluster_marks (s : State) (c : Nat) (x : Cluster) : (s.setCluster c x).marks = s.marks := rfl
@[simp] theorem State.setCluster_tlb (s : State) (c : Nat) (x : Cluster) : (s.setCluster c x).tlb = s.tlb := rfl
@[simp] theorem State.setCluster_walkCache (s : State) (c : Nat) (x : Cluster) : (s.setCluster c x).walkCache = s.walkCache := rfl
@[simp] theorem State.setCluster_groupTab (s : State) (c : Nat) (x : Cluster) : (s.setCluster c x).groupTab = s.groupTab := rfl
@[simp] theorem State.setCluster_mailboxes (s : State) (c : Nat) (x : Cluster) : (s.setCluster c x).mailboxes = s.mailboxes := rfl
@[simp] theorem State.setCluster_tracePorts (s : State) (c : Nat) (x : Cluster) : (s.setCluster c x).tracePorts = s.tracePorts := rfl
@[simp] theorem State.setCluster_heldAdds (s : State) (c : Nat) (x : Cluster) : (s.setCluster c x).heldAdds = s.heldAdds := rfl
@[simp] theorem State.setCluster_recent (s : State) (c : Nat) (x : Cluster) : (s.setCluster c x).recent = s.recent := rfl
@[simp] theorem State.setCluster_hostHeld (s : State) (c : Nat) (x : Cluster) : (s.setCluster c x).hostHeld = s.hostHeld := rfl
@[simp] theorem State.setCluster_paddocks (s : State) (c : Nat) (x : Cluster) : (s.setCluster c x).paddocks = s.paddocks := rfl
@[simp] theorem State.setCluster_task (s : State) (c : Nat) (x : Cluster) : (s.setCluster c x).task = s.task := rfl
@[simp] theorem State.setCluster_others (s : State) (c : Nat) (x : Cluster) : (s.setCluster c x).others = s.others := rfl
@[simp] theorem State.setCluster_agenda (s : State) (c : Nat) (x : Cluster) : (s.setCluster c x).agenda = s.agenda := rfl
@[simp] theorem State.setCluster_grant (s : State) (c : Nat) (x : Cluster) : (s.setCluster c x).grant = s.grant := rfl
@[simp] theorem State.setCluster_free (s : State) (c : Nat) (x : Cluster) : (s.setCluster c x).free = s.free := rfl
@[simp] theorem State.setCluster_out (s : State) (c : Nat) (x : Cluster) : (s.setCluster c x).out = s.out := rfl
@[simp] theorem State.setCluster_core (s : State) (c : Nat) (x : Cluster) (k : Nat) : (s.setCluster c x).core k = s.core k := rfl

/-! ### `State.wr`, `State.advance` and `State.flag` -/

@[simp] theorem State.wr_clk (s : State) (n : BitVec 5) (x : Word) : (s.wr n x).clk = s.clk := rfl
@[simp] theorem State.wr_boot (s : State) (n : BitVec 5) (x : Word) : (s.wr n x).boot = s.boot := rfl
@[simp] theorem State.wr_mem (s : State) (n : BitVec 5) (x : Word) : (s.wr n x).mem = s.mem := rfl
@[simp] theorem State.wr_scratch (s : State) (n : BitVec 5) (x : Word) : (s.wr n x).scratch = s.scratch := rfl
@[simp] theorem State.wr_cores (s : State) (n : BitVec 5) (x : Word) : (s.wr n x).cores = s.cores := rfl
@[simp] theorem State.wr_clusters (s : State) (n : BitVec 5) (x : Word) : (s.wr n x).clusters = s.clusters := rfl
@[simp] theorem State.wr_dramStacks (s : State) (n : BitVec 5) (x : Word) : (s.wr n x).dramStacks = s.dramStacks := rfl
@[simp] theorem State.wr_links (s : State) (n : BitVec 5) (x : Word) : (s.wr n x).links = s.links := rfl
@[simp] theorem State.wr_islands (s : State) (n : BitVec 5) (x : Word) : (s.wr n x).islands = s.islands := rfl
@[simp] theorem State.wr_routes (s : State) (n : BitVec 5) (x : Word) : (s.wr n x).routes = s.routes := rfl
@[simp] theorem State.wr_peerTx (s : State) (n : BitVec 5) (x : Word) : (s.wr n x).peerTx = s.peerTx := rfl
@[simp] theorem State.wr_peerRx (s : State) (n : BitVec 5) (x : Word) : (s.wr n x).peerRx = s.peerRx := rfl
@[simp] theorem State.wr_routerBits (s : State) (n : BitVec 5) (x : Word) : (s.wr n x).routerBits = s.routerBits := rfl
@[simp] theorem State.wr_drops (s : State) (n : BitVec 5) (x : Word) : (s.wr n x).drops = s.drops := rfl
@[simp] theorem State.wr_admitted (s : State) (n : BitVec 5) (x : Word) : (s.wr n x).admitted = s.admitted := rfl
@[simp] theorem State.wr_farrier (s : State) (n : BitVec 5) (x : Word) : (s.wr n x).farrier = s.farrier := rfl
@[simp] theorem State.wr_dir (s : State) (n : BitVec 5) (x : Word) : (s.wr n x).dir = s.dir := rfl
@[simp] theorem State.wr_l3 (s : State) (n : BitVec 5) (x : Word) : (s.wr n x).l3 = s.l3 := rfl
@[simp] theorem State.wr_l2dirty (s : State) (n : BitVec 5) (x : Word) : (s.wr n x).l2dirty = s.l2dirty := rfl
@[simp] theorem State.wr_poison (s : State) (n : BitVec 5) (x : Word) : (s.wr n x).poison = s.poison := rfl
@[simp] theorem State.wr_halters (s : State) (n : BitVec 5) (x : Word) : (s.wr n x).halters = s.halters := rfl
@[simp] theorem State.wr_codeBits (s : State) (n : BitVec 5) (x : Word) : (s.wr n x).codeBits = s.codeBits := rfl
@[simp] theorem State.wr_marks (s : State) (n : BitVec 5) (x : Word) : (s.wr n x).marks = s.marks := rfl
@[simp] theorem State.wr_tlb (s : State) (n : BitVec 5) (x : Word) : (s.wr n x).tlb = s.tlb := rfl
@[simp] theorem State.wr_walkCache (s : State) (n : BitVec 5) (x : Word) : (s.wr n x).walkCache = s.walkCache := rfl
@[simp] theorem State.wr_groupTab (s : State) (n : BitVec 5) (x : Word) : (s.wr n x).groupTab = s.groupTab := rfl
@[simp] theorem State.wr_mailboxes (s : State) (n : BitVec 5) (x : Word) : (s.wr n x).mailboxes = s.mailboxes := rfl
@[simp] theorem State.wr_tracePorts (s : State) (n : BitVec 5) (x : Word) : (s.wr n x).tracePorts = s.tracePorts := rfl
@[simp] theorem State.wr_heldAdds (s : State) (n : BitVec 5) (x : Word) : (s.wr n x).heldAdds = s.heldAdds := rfl
@[simp] theorem State.wr_recent (s : State) (n : BitVec 5) (x : Word) : (s.wr n x).recent = s.recent := rfl
@[simp] theorem State.wr_hostHeld (s : State) (n : BitVec 5) (x : Word) : (s.wr n x).hostHeld = s.hostHeld := rfl
@[simp] theorem State.wr_paddocks (s : State) (n : BitVec 5) (x : Word) : (s.wr n x).paddocks = s.paddocks := rfl
@[simp] theorem State.wr_others (s : State) (n : BitVec 5) (x : Word) : (s.wr n x).others = s.others := rfl
@[simp] theorem State.wr_agenda (s : State) (n : BitVec 5) (x : Word) : (s.wr n x).agenda = s.agenda := rfl
@[simp] theorem State.wr_grant (s : State) (n : BitVec 5) (x : Word) : (s.wr n x).grant = s.grant := rfl
@[simp] theorem State.wr_free (s : State) (n : BitVec 5) (x : Word) : (s.wr n x).free = s.free := rfl
@[simp] theorem State.wr_out (s : State) (n : BitVec 5) (x : Word) : (s.wr n x).out = s.out := rfl
@[simp] theorem State.wr_core (s : State) (n : BitVec 5) (x : Word) (k : Nat) : (s.wr n x).core k = s.core k := rfl
@[simp] theorem State.wr_cluster (s : State) (n : BitVec 5) (x : Word) (k : Nat) : (s.wr n x).cluster k = s.cluster k := rfl
@[simp] theorem State.advance_clk (s : State) (o : Ops) : (s.advance o).clk = s.clk := rfl
@[simp] theorem State.advance_boot (s : State) (o : Ops) : (s.advance o).boot = s.boot := rfl
@[simp] theorem State.advance_mem (s : State) (o : Ops) : (s.advance o).mem = s.mem := rfl
@[simp] theorem State.advance_scratch (s : State) (o : Ops) : (s.advance o).scratch = s.scratch := rfl
@[simp] theorem State.advance_cores (s : State) (o : Ops) : (s.advance o).cores = s.cores := rfl
@[simp] theorem State.advance_clusters (s : State) (o : Ops) : (s.advance o).clusters = s.clusters := rfl
@[simp] theorem State.advance_dramStacks (s : State) (o : Ops) : (s.advance o).dramStacks = s.dramStacks := rfl
@[simp] theorem State.advance_links (s : State) (o : Ops) : (s.advance o).links = s.links := rfl
@[simp] theorem State.advance_islands (s : State) (o : Ops) : (s.advance o).islands = s.islands := rfl
@[simp] theorem State.advance_routes (s : State) (o : Ops) : (s.advance o).routes = s.routes := rfl
@[simp] theorem State.advance_peerTx (s : State) (o : Ops) : (s.advance o).peerTx = s.peerTx := rfl
@[simp] theorem State.advance_peerRx (s : State) (o : Ops) : (s.advance o).peerRx = s.peerRx := rfl
@[simp] theorem State.advance_routerBits (s : State) (o : Ops) : (s.advance o).routerBits = s.routerBits := rfl
@[simp] theorem State.advance_drops (s : State) (o : Ops) : (s.advance o).drops = s.drops := rfl
@[simp] theorem State.advance_admitted (s : State) (o : Ops) : (s.advance o).admitted = s.admitted := rfl
@[simp] theorem State.advance_farrier (s : State) (o : Ops) : (s.advance o).farrier = s.farrier := rfl
@[simp] theorem State.advance_dir (s : State) (o : Ops) : (s.advance o).dir = s.dir := rfl
@[simp] theorem State.advance_l3 (s : State) (o : Ops) : (s.advance o).l3 = s.l3 := rfl
@[simp] theorem State.advance_l2dirty (s : State) (o : Ops) : (s.advance o).l2dirty = s.l2dirty := rfl
@[simp] theorem State.advance_poison (s : State) (o : Ops) : (s.advance o).poison = s.poison := rfl
@[simp] theorem State.advance_halters (s : State) (o : Ops) : (s.advance o).halters = s.halters := rfl
@[simp] theorem State.advance_codeBits (s : State) (o : Ops) : (s.advance o).codeBits = s.codeBits := rfl
@[simp] theorem State.advance_marks (s : State) (o : Ops) : (s.advance o).marks = s.marks := rfl
@[simp] theorem State.advance_tlb (s : State) (o : Ops) : (s.advance o).tlb = s.tlb := rfl
@[simp] theorem State.advance_walkCache (s : State) (o : Ops) : (s.advance o).walkCache = s.walkCache := rfl
@[simp] theorem State.advance_groupTab (s : State) (o : Ops) : (s.advance o).groupTab = s.groupTab := rfl
@[simp] theorem State.advance_mailboxes (s : State) (o : Ops) : (s.advance o).mailboxes = s.mailboxes := rfl
@[simp] theorem State.advance_tracePorts (s : State) (o : Ops) : (s.advance o).tracePorts = s.tracePorts := rfl
@[simp] theorem State.advance_heldAdds (s : State) (o : Ops) : (s.advance o).heldAdds = s.heldAdds := rfl
@[simp] theorem State.advance_recent (s : State) (o : Ops) : (s.advance o).recent = s.recent := rfl
@[simp] theorem State.advance_hostHeld (s : State) (o : Ops) : (s.advance o).hostHeld = s.hostHeld := rfl
@[simp] theorem State.advance_paddocks (s : State) (o : Ops) : (s.advance o).paddocks = s.paddocks := rfl
@[simp] theorem State.advance_others (s : State) (o : Ops) : (s.advance o).others = s.others := rfl
@[simp] theorem State.advance_agenda (s : State) (o : Ops) : (s.advance o).agenda = s.agenda := rfl
@[simp] theorem State.advance_grant (s : State) (o : Ops) : (s.advance o).grant = s.grant := rfl
@[simp] theorem State.advance_free (s : State) (o : Ops) : (s.advance o).free = s.free := rfl
@[simp] theorem State.advance_out (s : State) (o : Ops) : (s.advance o).out = s.out := rfl
@[simp] theorem State.advance_core (s : State) (o : Ops) (k : Nat) : (s.advance o).core k = s.core k := rfl
@[simp] theorem State.advance_cluster (s : State) (o : Ops) (k : Nat) : (s.advance o).cluster k = s.cluster k := rfl
@[simp] theorem State.flag_clk (s : State) (f : BitVec 6) : (s.flag f).clk = s.clk := rfl
@[simp] theorem State.flag_boot (s : State) (f : BitVec 6) : (s.flag f).boot = s.boot := rfl
@[simp] theorem State.flag_mem (s : State) (f : BitVec 6) : (s.flag f).mem = s.mem := rfl
@[simp] theorem State.flag_scratch (s : State) (f : BitVec 6) : (s.flag f).scratch = s.scratch := rfl
@[simp] theorem State.flag_cores (s : State) (f : BitVec 6) : (s.flag f).cores = s.cores := rfl
@[simp] theorem State.flag_clusters (s : State) (f : BitVec 6) : (s.flag f).clusters = s.clusters := rfl
@[simp] theorem State.flag_dramStacks (s : State) (f : BitVec 6) : (s.flag f).dramStacks = s.dramStacks := rfl
@[simp] theorem State.flag_links (s : State) (f : BitVec 6) : (s.flag f).links = s.links := rfl
@[simp] theorem State.flag_islands (s : State) (f : BitVec 6) : (s.flag f).islands = s.islands := rfl
@[simp] theorem State.flag_routes (s : State) (f : BitVec 6) : (s.flag f).routes = s.routes := rfl
@[simp] theorem State.flag_peerTx (s : State) (f : BitVec 6) : (s.flag f).peerTx = s.peerTx := rfl
@[simp] theorem State.flag_peerRx (s : State) (f : BitVec 6) : (s.flag f).peerRx = s.peerRx := rfl
@[simp] theorem State.flag_routerBits (s : State) (f : BitVec 6) : (s.flag f).routerBits = s.routerBits := rfl
@[simp] theorem State.flag_drops (s : State) (f : BitVec 6) : (s.flag f).drops = s.drops := rfl
@[simp] theorem State.flag_admitted (s : State) (f : BitVec 6) : (s.flag f).admitted = s.admitted := rfl
@[simp] theorem State.flag_farrier (s : State) (f : BitVec 6) : (s.flag f).farrier = s.farrier := rfl
@[simp] theorem State.flag_dir (s : State) (f : BitVec 6) : (s.flag f).dir = s.dir := rfl
@[simp] theorem State.flag_l3 (s : State) (f : BitVec 6) : (s.flag f).l3 = s.l3 := rfl
@[simp] theorem State.flag_l2dirty (s : State) (f : BitVec 6) : (s.flag f).l2dirty = s.l2dirty := rfl
@[simp] theorem State.flag_poison (s : State) (f : BitVec 6) : (s.flag f).poison = s.poison := rfl
@[simp] theorem State.flag_halters (s : State) (f : BitVec 6) : (s.flag f).halters = s.halters := rfl
@[simp] theorem State.flag_codeBits (s : State) (f : BitVec 6) : (s.flag f).codeBits = s.codeBits := rfl
@[simp] theorem State.flag_marks (s : State) (f : BitVec 6) : (s.flag f).marks = s.marks := rfl
@[simp] theorem State.flag_tlb (s : State) (f : BitVec 6) : (s.flag f).tlb = s.tlb := rfl
@[simp] theorem State.flag_walkCache (s : State) (f : BitVec 6) : (s.flag f).walkCache = s.walkCache := rfl
@[simp] theorem State.flag_groupTab (s : State) (f : BitVec 6) : (s.flag f).groupTab = s.groupTab := rfl
@[simp] theorem State.flag_mailboxes (s : State) (f : BitVec 6) : (s.flag f).mailboxes = s.mailboxes := rfl
@[simp] theorem State.flag_tracePorts (s : State) (f : BitVec 6) : (s.flag f).tracePorts = s.tracePorts := rfl
@[simp] theorem State.flag_heldAdds (s : State) (f : BitVec 6) : (s.flag f).heldAdds = s.heldAdds := rfl
@[simp] theorem State.flag_recent (s : State) (f : BitVec 6) : (s.flag f).recent = s.recent := rfl
@[simp] theorem State.flag_hostHeld (s : State) (f : BitVec 6) : (s.flag f).hostHeld = s.hostHeld := rfl
@[simp] theorem State.flag_paddocks (s : State) (f : BitVec 6) : (s.flag f).paddocks = s.paddocks := rfl
@[simp] theorem State.flag_others (s : State) (f : BitVec 6) : (s.flag f).others = s.others := rfl
@[simp] theorem State.flag_agenda (s : State) (f : BitVec 6) : (s.flag f).agenda = s.agenda := rfl
@[simp] theorem State.flag_grant (s : State) (f : BitVec 6) : (s.flag f).grant = s.grant := rfl
@[simp] theorem State.flag_free (s : State) (f : BitVec 6) : (s.flag f).free = s.free := rfl
@[simp] theorem State.flag_out (s : State) (f : BitVec 6) : (s.flag f).out = s.out := rfl
@[simp] theorem State.flag_core (s : State) (f : BitVec 6) (k : Nat) : (s.flag f).core k = s.core k := rfl
@[simp] theorem State.flag_cluster (s : State) (f : BitVec 6) (k : Nat) : (s.flag f).cluster k = s.cluster k := rfl
@[simp] theorem State.wr_task (s : State) (n : BitVec 5) (x : Word) : (s.wr n x).task = s.task.wr n x := rfl
@[simp] theorem State.advance_task_tid (s : State) (o : Ops) : (s.advance o).task.tid = s.task.tid := rfl
@[simp] theorem State.advance_task_cstate (s : State) (o : Ops) : (s.advance o).task.cstate = s.task.cstate := rfl
@[simp] theorem State.advance_task_core (s : State) (o : Ops) : (s.advance o).task.core = s.task.core := rfl
@[simp] theorem State.advance_task_slot (s : State) (o : Ops) : (s.advance o).task.slot = s.task.slot := rfl
@[simp] theorem State.advance_task_parked (s : State) (o : Ops) : (s.advance o).task.parked = s.task.parked := rfl
@[simp] theorem State.advance_task_wait (s : State) (o : Ops) : (s.advance o).task.wait = .none := rfl
@[simp] theorem State.advance_task_pc (s : State) (o : Ops) : (s.advance o).task.pc = s.task.pc + BitVec.ofNat 64 o.len.bytes := rfl
@[simp] theorem State.advance_task_g (s : State) (o : Ops) : (s.advance o).task.g = s.task.g := rfl
@[simp] theorem State.advance_task_v (s : State) (o : Ops) : (s.advance o).task.v = s.task.v := rfl
@[simp] theorem State.advance_task_p (s : State) (o : Ops) : (s.advance o).task.p = s.task.p := rfl
@[simp] theorem State.advance_task_streams (s : State) (o : Ops) : (s.advance o).task.streams = s.task.streams := rfl
@[simp] theorem State.advance_task_ports (s : State) (o : Ops) : (s.advance o).task.ports = s.task.ports := rfl
@[simp] theorem State.advance_task_stat (s : State) (o : Ops) : (s.advance o).task.stat = s.task.stat := rfl
@[simp] theorem State.advance_task_epc (s : State) (o : Ops) : (s.advance o).task.epc = s.task.epc := rfl
@[simp] theorem State.advance_task_ecause (s : State) (o : Ops) : (s.advance o).task.ecause = s.task.ecause := rfl
@[simp] theorem State.advance_task_einfo0 (s : State) (o : Ops) : (s.advance o).task.einfo0 = s.task.einfo0 := rfl
@[simp] theorem State.advance_task_einfo1 (s : State) (o : Ops) : (s.advance o).task.einfo1 = s.task.einfo1 := rfl
@[simp] theorem State.advance_task_einfo2 (s : State) (o : Ops) : (s.advance o).task.einfo2 = s.task.einfo2 := rfl
@[simp] theorem State.advance_task_estat (s : State) (o : Ops) : (s.advance o).task.estat = s.task.estat := rfl
@[simp] theorem State.advance_task_tvec (s : State) (o : Ops) : (s.advance o).task.tvec = s.task.tvec := rfl
@[simp] theorem State.advance_task_ctxa (s : State) (o : Ops) : (s.advance o).task.ctxa = s.task.ctxa := rfl
@[simp] theorem State.advance_task_fsr (s : State) (o : Ops) : (s.advance o).task.fsr = s.task.fsr := rfl
@[simp] theorem State.advance_task_seed (s : State) (o : Ops) : (s.advance o).task.seed = s.task.seed := rfl
@[simp] theorem State.advance_task_twin (s : State) (o : Ops) : (s.advance o).task.twin = s.task.twin := rfl
@[simp] theorem State.advance_task_jsr (s : State) (o : Ops) : (s.advance o).task.jsr = s.task.jsr := rfl
@[simp] theorem State.advance_task_rank (s : State) (o : Ops) : (s.advance o).task.rank = s.task.rank := rfl
@[simp] theorem State.advance_task_kcur (s : State) (o : Ops) : (s.advance o).task.kcur = s.task.kcur := rfl
@[simp] theorem State.advance_task_aspace (s : State) (o : Ops) : (s.advance o).task.aspace = s.task.aspace := rfl
@[simp] theorem State.advance_task_groups (s : State) (o : Ops) : (s.advance o).task.groups = s.task.groups := rfl
@[simp] theorem State.advance_task_tile (s : State) (o : Ops) : (s.advance o).task.tile = s.task.tile := rfl
@[simp] theorem State.advance_task_saved (s : State) (o : Ops) : (s.advance o).task.saved = s.task.saved := rfl
@[simp] theorem State.advance_task_dump (s : State) (o : Ops) : (s.advance o).task.dump = s.task.dump := rfl
@[simp] theorem State.advance_task_secondary (s : State) (o : Ops) : (s.advance o).task.secondary = s.task.secondary := rfl
@[simp] theorem State.advance_task_faults (s : State) (o : Ops) : (s.advance o).task.faults = s.task.faults := rfl
@[simp] theorem State.advance_task_dataErr (s : State) (o : Ops) : (s.advance o).task.dataErr = s.task.dataErr := rfl
@[simp] theorem State.advance_task_peerSent (s : State) (o : Ops) : (s.advance o).task.peerSent = s.task.peerSent := rfl
@[simp] theorem State.advance_task_stored (s : State) (o : Ops) : (s.advance o).task.stored = s.task.stored := rfl
@[simp] theorem State.advance_task_target (s : State) (o : Ops) : (s.advance o).task.target = s.task.target := rfl
@[simp] theorem State.advance_task_oldCore (s : State) (o : Ops) : (s.advance o).task.oldCore = s.task.oldCore := rfl
@[simp] theorem State.advance_task_message (s : State) (o : Ops) : (s.advance o).task.message = s.task.message := rfl
@[simp] theorem State.advance_task_placed (s : State) (o : Ops) : (s.advance o).task.placed = s.task.placed := rfl
@[simp] theorem State.advance_task_transit (s : State) (o : Ops) : (s.advance o).task.transit = s.task.transit := rfl
@[simp] theorem State.advance_task_qwait (s : State) (o : Ops) : (s.advance o).task.qwait = s.task.qwait := rfl
@[simp] theorem State.advance_task_stopDue (s : State) (o : Ops) : (s.advance o).task.stopDue = s.task.stopDue := rfl
@[simp] theorem State.advance_task_stopRec (s : State) (o : Ops) : (s.advance o).task.stopRec = s.task.stopRec := rfl
@[simp] theorem State.advance_task_sender (s : State) (o : Ops) : (s.advance o).task.sender = s.task.sender := rfl
@[simp] theorem State.flag_task_tid (s : State) (f : BitVec 6) : (s.flag f).task.tid = s.task.tid := rfl
@[simp] theorem State.flag_task_cstate (s : State) (f : BitVec 6) : (s.flag f).task.cstate = s.task.cstate := rfl
@[simp] theorem State.flag_task_core (s : State) (f : BitVec 6) : (s.flag f).task.core = s.task.core := rfl
@[simp] theorem State.flag_task_slot (s : State) (f : BitVec 6) : (s.flag f).task.slot = s.task.slot := rfl
@[simp] theorem State.flag_task_parked (s : State) (f : BitVec 6) : (s.flag f).task.parked = s.task.parked := rfl
@[simp] theorem State.flag_task_wait (s : State) (f : BitVec 6) : (s.flag f).task.wait = s.task.wait := rfl
@[simp] theorem State.flag_task_pc (s : State) (f : BitVec 6) : (s.flag f).task.pc = s.task.pc := rfl
@[simp] theorem State.flag_task_g (s : State) (f : BitVec 6) : (s.flag f).task.g = s.task.g := rfl
@[simp] theorem State.flag_task_v (s : State) (f : BitVec 6) : (s.flag f).task.v = s.task.v := rfl
@[simp] theorem State.flag_task_p (s : State) (f : BitVec 6) : (s.flag f).task.p = s.task.p := rfl
@[simp] theorem State.flag_task_streams (s : State) (f : BitVec 6) : (s.flag f).task.streams = s.task.streams := rfl
@[simp] theorem State.flag_task_ports (s : State) (f : BitVec 6) : (s.flag f).task.ports = s.task.ports := rfl
@[simp] theorem State.flag_task_stat (s : State) (f : BitVec 6) : (s.flag f).task.stat = s.task.stat := rfl
@[simp] theorem State.flag_task_epc (s : State) (f : BitVec 6) : (s.flag f).task.epc = s.task.epc := rfl
@[simp] theorem State.flag_task_ecause (s : State) (f : BitVec 6) : (s.flag f).task.ecause = s.task.ecause := rfl
@[simp] theorem State.flag_task_einfo0 (s : State) (f : BitVec 6) : (s.flag f).task.einfo0 = s.task.einfo0 := rfl
@[simp] theorem State.flag_task_einfo1 (s : State) (f : BitVec 6) : (s.flag f).task.einfo1 = s.task.einfo1 := rfl
@[simp] theorem State.flag_task_einfo2 (s : State) (f : BitVec 6) : (s.flag f).task.einfo2 = s.task.einfo2 := rfl
@[simp] theorem State.flag_task_estat (s : State) (f : BitVec 6) : (s.flag f).task.estat = s.task.estat := rfl
@[simp] theorem State.flag_task_tvec (s : State) (f : BitVec 6) : (s.flag f).task.tvec = s.task.tvec := rfl
@[simp] theorem State.flag_task_ctxa (s : State) (f : BitVec 6) : (s.flag f).task.ctxa = s.task.ctxa := rfl
@[simp] theorem State.flag_task_fsr (s : State) (f : BitVec 6) : (s.flag f).task.fsr = s.task.fsr ||| f.setWidth 64 := rfl
@[simp] theorem State.flag_task_seed (s : State) (f : BitVec 6) : (s.flag f).task.seed = s.task.seed := rfl
@[simp] theorem State.flag_task_twin (s : State) (f : BitVec 6) : (s.flag f).task.twin = s.task.twin := rfl
@[simp] theorem State.flag_task_jsr (s : State) (f : BitVec 6) : (s.flag f).task.jsr = s.task.jsr := rfl
@[simp] theorem State.flag_task_rank (s : State) (f : BitVec 6) : (s.flag f).task.rank = s.task.rank := rfl
@[simp] theorem State.flag_task_kcur (s : State) (f : BitVec 6) : (s.flag f).task.kcur = s.task.kcur := rfl
@[simp] theorem State.flag_task_aspace (s : State) (f : BitVec 6) : (s.flag f).task.aspace = s.task.aspace := rfl
@[simp] theorem State.flag_task_groups (s : State) (f : BitVec 6) : (s.flag f).task.groups = s.task.groups := rfl
@[simp] theorem State.flag_task_tile (s : State) (f : BitVec 6) : (s.flag f).task.tile = s.task.tile := rfl
@[simp] theorem State.flag_task_saved (s : State) (f : BitVec 6) : (s.flag f).task.saved = s.task.saved := rfl
@[simp] theorem State.flag_task_dump (s : State) (f : BitVec 6) : (s.flag f).task.dump = s.task.dump := rfl
@[simp] theorem State.flag_task_secondary (s : State) (f : BitVec 6) : (s.flag f).task.secondary = s.task.secondary := rfl
@[simp] theorem State.flag_task_faults (s : State) (f : BitVec 6) : (s.flag f).task.faults = s.task.faults := rfl
@[simp] theorem State.flag_task_dataErr (s : State) (f : BitVec 6) : (s.flag f).task.dataErr = s.task.dataErr := rfl
@[simp] theorem State.flag_task_peerSent (s : State) (f : BitVec 6) : (s.flag f).task.peerSent = s.task.peerSent := rfl
@[simp] theorem State.flag_task_stored (s : State) (f : BitVec 6) : (s.flag f).task.stored = s.task.stored := rfl
@[simp] theorem State.flag_task_target (s : State) (f : BitVec 6) : (s.flag f).task.target = s.task.target := rfl
@[simp] theorem State.flag_task_oldCore (s : State) (f : BitVec 6) : (s.flag f).task.oldCore = s.task.oldCore := rfl
@[simp] theorem State.flag_task_message (s : State) (f : BitVec 6) : (s.flag f).task.message = s.task.message := rfl
@[simp] theorem State.flag_task_placed (s : State) (f : BitVec 6) : (s.flag f).task.placed = s.task.placed := rfl
@[simp] theorem State.flag_task_transit (s : State) (f : BitVec 6) : (s.flag f).task.transit = s.task.transit := rfl
@[simp] theorem State.flag_task_qwait (s : State) (f : BitVec 6) : (s.flag f).task.qwait = s.task.qwait := rfl
@[simp] theorem State.flag_task_stopDue (s : State) (f : BitVec 6) : (s.flag f).task.stopDue = s.task.stopDue := rfl
@[simp] theorem State.flag_task_stopRec (s : State) (f : BitVec 6) : (s.flag f).task.stopRec = s.task.stopRec := rfl
@[simp] theorem State.flag_task_sender (s : State) (f : BitVec 6) : (s.flag f).task.sender = s.task.sender := rfl

/-! ### `State.order` -/

@[simp] theorem State.order_clk (s : State) (sc : Scope) : (s.order sc).clk = s.clk := by unfold State.order; split <;> rfl
@[simp] theorem State.order_boot (s : State) (sc : Scope) : (s.order sc).boot = s.boot := by unfold State.order; split <;> rfl
@[simp] theorem State.order_mem (s : State) (sc : Scope) : (s.order sc).mem = s.mem := by unfold State.order; split <;> rfl
@[simp] theorem State.order_scratch (s : State) (sc : Scope) : (s.order sc).scratch = s.scratch := by unfold State.order; split <;> rfl
@[simp] theorem State.order_cores (s : State) (sc : Scope) : (s.order sc).cores = s.cores := by unfold State.order; split <;> rfl
@[simp] theorem State.order_clusters (s : State) (sc : Scope) : (s.order sc).clusters = s.clusters := by unfold State.order; split <;> rfl
@[simp] theorem State.order_dramStacks (s : State) (sc : Scope) : (s.order sc).dramStacks = s.dramStacks := by unfold State.order; split <;> rfl
@[simp] theorem State.order_links (s : State) (sc : Scope) : (s.order sc).links = s.links := by unfold State.order; split <;> rfl
@[simp] theorem State.order_islands (s : State) (sc : Scope) : (s.order sc).islands = s.islands := by unfold State.order; split <;> rfl
@[simp] theorem State.order_routes (s : State) (sc : Scope) : (s.order sc).routes = s.routes := by unfold State.order; split <;> rfl
@[simp] theorem State.order_peerTx (s : State) (sc : Scope) : (s.order sc).peerTx = s.peerTx := by unfold State.order; split <;> rfl
@[simp] theorem State.order_peerRx (s : State) (sc : Scope) : (s.order sc).peerRx = s.peerRx := by unfold State.order; split <;> rfl
@[simp] theorem State.order_routerBits (s : State) (sc : Scope) : (s.order sc).routerBits = s.routerBits := by unfold State.order; split <;> rfl
@[simp] theorem State.order_drops (s : State) (sc : Scope) : (s.order sc).drops = s.drops := by unfold State.order; split <;> rfl
@[simp] theorem State.order_admitted (s : State) (sc : Scope) : (s.order sc).admitted = s.admitted := by unfold State.order; split <;> rfl
@[simp] theorem State.order_farrier (s : State) (sc : Scope) : (s.order sc).farrier = s.farrier := by unfold State.order; split <;> rfl
@[simp] theorem State.order_dir (s : State) (sc : Scope) : (s.order sc).dir = s.dir := by unfold State.order; split <;> rfl
@[simp] theorem State.order_l3 (s : State) (sc : Scope) : (s.order sc).l3 = s.l3 := by unfold State.order; split <;> rfl
@[simp] theorem State.order_l2dirty (s : State) (sc : Scope) : (s.order sc).l2dirty = s.l2dirty := by unfold State.order; split <;> rfl
@[simp] theorem State.order_poison (s : State) (sc : Scope) : (s.order sc).poison = s.poison := by unfold State.order; split <;> rfl
@[simp] theorem State.order_halters (s : State) (sc : Scope) : (s.order sc).halters = s.halters := by unfold State.order; split <;> rfl
@[simp] theorem State.order_codeBits (s : State) (sc : Scope) : (s.order sc).codeBits = s.codeBits := by unfold State.order; split <;> rfl
@[simp] theorem State.order_marks (s : State) (sc : Scope) : (s.order sc).marks = s.marks := by unfold State.order; split <;> rfl
@[simp] theorem State.order_tlb (s : State) (sc : Scope) : (s.order sc).tlb = s.tlb := by unfold State.order; split <;> rfl
@[simp] theorem State.order_walkCache (s : State) (sc : Scope) : (s.order sc).walkCache = s.walkCache := by unfold State.order; split <;> rfl
@[simp] theorem State.order_groupTab (s : State) (sc : Scope) : (s.order sc).groupTab = s.groupTab := by unfold State.order; split <;> rfl
@[simp] theorem State.order_mailboxes (s : State) (sc : Scope) : (s.order sc).mailboxes = s.mailboxes := by unfold State.order; split <;> rfl
@[simp] theorem State.order_tracePorts (s : State) (sc : Scope) : (s.order sc).tracePorts = s.tracePorts := by unfold State.order; split <;> rfl
@[simp] theorem State.order_heldAdds (s : State) (sc : Scope) : (s.order sc).heldAdds = s.heldAdds := by unfold State.order; split <;> rfl
@[simp] theorem State.order_hostHeld (s : State) (sc : Scope) : (s.order sc).hostHeld = s.hostHeld := by unfold State.order; split <;> rfl
@[simp] theorem State.order_paddocks (s : State) (sc : Scope) : (s.order sc).paddocks = s.paddocks := by unfold State.order; split <;> rfl
@[simp] theorem State.order_task (s : State) (sc : Scope) : (s.order sc).task = s.task := by unfold State.order; split <;> rfl
@[simp] theorem State.order_others (s : State) (sc : Scope) : (s.order sc).others = s.others := by unfold State.order; split <;> rfl
@[simp] theorem State.order_agenda (s : State) (sc : Scope) : (s.order sc).agenda = s.agenda := by unfold State.order; split <;> rfl
@[simp] theorem State.order_grant (s : State) (sc : Scope) : (s.order sc).grant = s.grant := by unfold State.order; split <;> rfl
@[simp] theorem State.order_free (s : State) (sc : Scope) : (s.order sc).free = s.free := by unfold State.order; split <;> rfl
@[simp] theorem State.order_out (s : State) (sc : Scope) : (s.order sc).out = s.out := by unfold State.order; split <;> rfl
@[simp] theorem State.order_recent (s : State) (sc : Scope) : (s.order sc).recent = if sc = .c then s.recent else s.recent.filter (·.1 != s.task.tid) := by unfold State.order; split <;> rfl
@[simp] theorem State.order_core (s : State) (sc : Scope) (k : Nat) : (s.order sc).core k = s.core k := by unfold State.order; split <;> rfl
@[simp] theorem State.order_cluster (s : State) (sc : Scope) (k : Nat) : (s.order sc).cluster k = s.cluster k := by unfold State.order; split <;> rfl

/-! ### A write of a register of a task -/

@[simp] theorem Task.wr_tid (t : Task) (n : BitVec 5) (x : Word) : (t.wr n x).tid = t.tid := by unfold Task.wr; split <;> rfl
@[simp] theorem Task.wr_cstate (t : Task) (n : BitVec 5) (x : Word) : (t.wr n x).cstate = t.cstate := by unfold Task.wr; split <;> rfl
@[simp] theorem Task.wr_core (t : Task) (n : BitVec 5) (x : Word) : (t.wr n x).core = t.core := by unfold Task.wr; split <;> rfl
@[simp] theorem Task.wr_slot (t : Task) (n : BitVec 5) (x : Word) : (t.wr n x).slot = t.slot := by unfold Task.wr; split <;> rfl
@[simp] theorem Task.wr_parked (t : Task) (n : BitVec 5) (x : Word) : (t.wr n x).parked = t.parked := by unfold Task.wr; split <;> rfl
@[simp] theorem Task.wr_wait (t : Task) (n : BitVec 5) (x : Word) : (t.wr n x).wait = t.wait := by unfold Task.wr; split <;> rfl
@[simp] theorem Task.wr_pc (t : Task) (n : BitVec 5) (x : Word) : (t.wr n x).pc = t.pc := by unfold Task.wr; split <;> rfl
@[simp] theorem Task.wr_v (t : Task) (n : BitVec 5) (x : Word) : (t.wr n x).v = t.v := by unfold Task.wr; split <;> rfl
@[simp] theorem Task.wr_p (t : Task) (n : BitVec 5) (x : Word) : (t.wr n x).p = t.p := by unfold Task.wr; split <;> rfl
@[simp] theorem Task.wr_streams (t : Task) (n : BitVec 5) (x : Word) : (t.wr n x).streams = t.streams := by unfold Task.wr; split <;> rfl
@[simp] theorem Task.wr_ports (t : Task) (n : BitVec 5) (x : Word) : (t.wr n x).ports = t.ports := by unfold Task.wr; split <;> rfl
@[simp] theorem Task.wr_stat (t : Task) (n : BitVec 5) (x : Word) : (t.wr n x).stat = t.stat := by unfold Task.wr; split <;> rfl
@[simp] theorem Task.wr_epc (t : Task) (n : BitVec 5) (x : Word) : (t.wr n x).epc = t.epc := by unfold Task.wr; split <;> rfl
@[simp] theorem Task.wr_ecause (t : Task) (n : BitVec 5) (x : Word) : (t.wr n x).ecause = t.ecause := by unfold Task.wr; split <;> rfl
@[simp] theorem Task.wr_einfo0 (t : Task) (n : BitVec 5) (x : Word) : (t.wr n x).einfo0 = t.einfo0 := by unfold Task.wr; split <;> rfl
@[simp] theorem Task.wr_einfo1 (t : Task) (n : BitVec 5) (x : Word) : (t.wr n x).einfo1 = t.einfo1 := by unfold Task.wr; split <;> rfl
@[simp] theorem Task.wr_einfo2 (t : Task) (n : BitVec 5) (x : Word) : (t.wr n x).einfo2 = t.einfo2 := by unfold Task.wr; split <;> rfl
@[simp] theorem Task.wr_estat (t : Task) (n : BitVec 5) (x : Word) : (t.wr n x).estat = t.estat := by unfold Task.wr; split <;> rfl
@[simp] theorem Task.wr_tvec (t : Task) (n : BitVec 5) (x : Word) : (t.wr n x).tvec = t.tvec := by unfold Task.wr; split <;> rfl
@[simp] theorem Task.wr_ctxa (t : Task) (n : BitVec 5) (x : Word) : (t.wr n x).ctxa = t.ctxa := by unfold Task.wr; split <;> rfl
@[simp] theorem Task.wr_fsr (t : Task) (n : BitVec 5) (x : Word) : (t.wr n x).fsr = t.fsr := by unfold Task.wr; split <;> rfl
@[simp] theorem Task.wr_seed (t : Task) (n : BitVec 5) (x : Word) : (t.wr n x).seed = t.seed := by unfold Task.wr; split <;> rfl
@[simp] theorem Task.wr_twin (t : Task) (n : BitVec 5) (x : Word) : (t.wr n x).twin = t.twin := by unfold Task.wr; split <;> rfl
@[simp] theorem Task.wr_jsr (t : Task) (n : BitVec 5) (x : Word) : (t.wr n x).jsr = t.jsr := by unfold Task.wr; split <;> rfl
@[simp] theorem Task.wr_rank (t : Task) (n : BitVec 5) (x : Word) : (t.wr n x).rank = t.rank := by unfold Task.wr; split <;> rfl
@[simp] theorem Task.wr_kcur (t : Task) (n : BitVec 5) (x : Word) : (t.wr n x).kcur = t.kcur := by unfold Task.wr; split <;> rfl
@[simp] theorem Task.wr_aspace (t : Task) (n : BitVec 5) (x : Word) : (t.wr n x).aspace = t.aspace := by unfold Task.wr; split <;> rfl
@[simp] theorem Task.wr_groups (t : Task) (n : BitVec 5) (x : Word) : (t.wr n x).groups = t.groups := by unfold Task.wr; split <;> rfl
@[simp] theorem Task.wr_tile (t : Task) (n : BitVec 5) (x : Word) : (t.wr n x).tile = t.tile := by unfold Task.wr; split <;> rfl
@[simp] theorem Task.wr_saved (t : Task) (n : BitVec 5) (x : Word) : (t.wr n x).saved = t.saved := by unfold Task.wr; split <;> rfl
@[simp] theorem Task.wr_dump (t : Task) (n : BitVec 5) (x : Word) : (t.wr n x).dump = t.dump := by unfold Task.wr; split <;> rfl
@[simp] theorem Task.wr_secondary (t : Task) (n : BitVec 5) (x : Word) : (t.wr n x).secondary = t.secondary := by unfold Task.wr; split <;> rfl
@[simp] theorem Task.wr_faults (t : Task) (n : BitVec 5) (x : Word) : (t.wr n x).faults = t.faults := by unfold Task.wr; split <;> rfl
@[simp] theorem Task.wr_dataErr (t : Task) (n : BitVec 5) (x : Word) : (t.wr n x).dataErr = t.dataErr := by unfold Task.wr; split <;> rfl
@[simp] theorem Task.wr_peerSent (t : Task) (n : BitVec 5) (x : Word) : (t.wr n x).peerSent = t.peerSent := by unfold Task.wr; split <;> rfl
@[simp] theorem Task.wr_stored (t : Task) (n : BitVec 5) (x : Word) : (t.wr n x).stored = t.stored := by unfold Task.wr; split <;> rfl
@[simp] theorem Task.wr_target (t : Task) (n : BitVec 5) (x : Word) : (t.wr n x).target = t.target := by unfold Task.wr; split <;> rfl
@[simp] theorem Task.wr_oldCore (t : Task) (n : BitVec 5) (x : Word) : (t.wr n x).oldCore = t.oldCore := by unfold Task.wr; split <;> rfl
@[simp] theorem Task.wr_message (t : Task) (n : BitVec 5) (x : Word) : (t.wr n x).message = t.message := by unfold Task.wr; split <;> rfl
@[simp] theorem Task.wr_placed (t : Task) (n : BitVec 5) (x : Word) : (t.wr n x).placed = t.placed := by unfold Task.wr; split <;> rfl
@[simp] theorem Task.wr_transit (t : Task) (n : BitVec 5) (x : Word) : (t.wr n x).transit = t.transit := by unfold Task.wr; split <;> rfl
@[simp] theorem Task.wr_qwait (t : Task) (n : BitVec 5) (x : Word) : (t.wr n x).qwait = t.qwait := by unfold Task.wr; split <;> rfl
@[simp] theorem Task.wr_stopDue (t : Task) (n : BitVec 5) (x : Word) : (t.wr n x).stopDue = t.stopDue := by unfold Task.wr; split <;> rfl
@[simp] theorem Task.wr_stopRec (t : Task) (n : BitVec 5) (x : Word) : (t.wr n x).stopRec = t.stopRec := by unfold Task.wr; split <;> rfl
@[simp] theorem Task.wr_sender (t : Task) (n : BitVec 5) (x : Word) : (t.wr n x).sender = t.sender := by unfold Task.wr; split <;> rfl
@[simp] theorem Task.wrV_tid (t : Task) (n : Nat) (x : VReg) : (t.wrV n x).tid = t.tid := by unfold Task.wrV; split <;> rfl
@[simp] theorem Task.wrV_cstate (t : Task) (n : Nat) (x : VReg) : (t.wrV n x).cstate = t.cstate := by unfold Task.wrV; split <;> rfl
@[simp] theorem Task.wrV_core (t : Task) (n : Nat) (x : VReg) : (t.wrV n x).core = t.core := by unfold Task.wrV; split <;> rfl
@[simp] theorem Task.wrV_slot (t : Task) (n : Nat) (x : VReg) : (t.wrV n x).slot = t.slot := by unfold Task.wrV; split <;> rfl
@[simp] theorem Task.wrV_parked (t : Task) (n : Nat) (x : VReg) : (t.wrV n x).parked = t.parked := by unfold Task.wrV; split <;> rfl
@[simp] theorem Task.wrV_wait (t : Task) (n : Nat) (x : VReg) : (t.wrV n x).wait = t.wait := by unfold Task.wrV; split <;> rfl
@[simp] theorem Task.wrV_pc (t : Task) (n : Nat) (x : VReg) : (t.wrV n x).pc = t.pc := by unfold Task.wrV; split <;> rfl
@[simp] theorem Task.wrV_g (t : Task) (n : Nat) (x : VReg) : (t.wrV n x).g = t.g := by unfold Task.wrV; split <;> rfl
@[simp] theorem Task.wrV_p (t : Task) (n : Nat) (x : VReg) : (t.wrV n x).p = t.p := by unfold Task.wrV; split <;> rfl
@[simp] theorem Task.wrV_streams (t : Task) (n : Nat) (x : VReg) : (t.wrV n x).streams = t.streams := by unfold Task.wrV; split <;> rfl
@[simp] theorem Task.wrV_ports (t : Task) (n : Nat) (x : VReg) : (t.wrV n x).ports = t.ports := by unfold Task.wrV; split <;> rfl
@[simp] theorem Task.wrV_stat (t : Task) (n : Nat) (x : VReg) : (t.wrV n x).stat = t.stat := by unfold Task.wrV; split <;> rfl
@[simp] theorem Task.wrV_epc (t : Task) (n : Nat) (x : VReg) : (t.wrV n x).epc = t.epc := by unfold Task.wrV; split <;> rfl
@[simp] theorem Task.wrV_ecause (t : Task) (n : Nat) (x : VReg) : (t.wrV n x).ecause = t.ecause := by unfold Task.wrV; split <;> rfl
@[simp] theorem Task.wrV_einfo0 (t : Task) (n : Nat) (x : VReg) : (t.wrV n x).einfo0 = t.einfo0 := by unfold Task.wrV; split <;> rfl
@[simp] theorem Task.wrV_einfo1 (t : Task) (n : Nat) (x : VReg) : (t.wrV n x).einfo1 = t.einfo1 := by unfold Task.wrV; split <;> rfl
@[simp] theorem Task.wrV_einfo2 (t : Task) (n : Nat) (x : VReg) : (t.wrV n x).einfo2 = t.einfo2 := by unfold Task.wrV; split <;> rfl
@[simp] theorem Task.wrV_estat (t : Task) (n : Nat) (x : VReg) : (t.wrV n x).estat = t.estat := by unfold Task.wrV; split <;> rfl
@[simp] theorem Task.wrV_tvec (t : Task) (n : Nat) (x : VReg) : (t.wrV n x).tvec = t.tvec := by unfold Task.wrV; split <;> rfl
@[simp] theorem Task.wrV_ctxa (t : Task) (n : Nat) (x : VReg) : (t.wrV n x).ctxa = t.ctxa := by unfold Task.wrV; split <;> rfl
@[simp] theorem Task.wrV_fsr (t : Task) (n : Nat) (x : VReg) : (t.wrV n x).fsr = t.fsr := by unfold Task.wrV; split <;> rfl
@[simp] theorem Task.wrV_seed (t : Task) (n : Nat) (x : VReg) : (t.wrV n x).seed = t.seed := by unfold Task.wrV; split <;> rfl
@[simp] theorem Task.wrV_twin (t : Task) (n : Nat) (x : VReg) : (t.wrV n x).twin = t.twin := by unfold Task.wrV; split <;> rfl
@[simp] theorem Task.wrV_jsr (t : Task) (n : Nat) (x : VReg) : (t.wrV n x).jsr = t.jsr := by unfold Task.wrV; split <;> rfl
@[simp] theorem Task.wrV_rank (t : Task) (n : Nat) (x : VReg) : (t.wrV n x).rank = t.rank := by unfold Task.wrV; split <;> rfl
@[simp] theorem Task.wrV_kcur (t : Task) (n : Nat) (x : VReg) : (t.wrV n x).kcur = t.kcur := by unfold Task.wrV; split <;> rfl
@[simp] theorem Task.wrV_aspace (t : Task) (n : Nat) (x : VReg) : (t.wrV n x).aspace = t.aspace := by unfold Task.wrV; split <;> rfl
@[simp] theorem Task.wrV_groups (t : Task) (n : Nat) (x : VReg) : (t.wrV n x).groups = t.groups := by unfold Task.wrV; split <;> rfl
@[simp] theorem Task.wrV_tile (t : Task) (n : Nat) (x : VReg) : (t.wrV n x).tile = t.tile := by unfold Task.wrV; split <;> rfl
@[simp] theorem Task.wrV_saved (t : Task) (n : Nat) (x : VReg) : (t.wrV n x).saved = t.saved := by unfold Task.wrV; split <;> rfl
@[simp] theorem Task.wrV_dump (t : Task) (n : Nat) (x : VReg) : (t.wrV n x).dump = t.dump := by unfold Task.wrV; split <;> rfl
@[simp] theorem Task.wrV_secondary (t : Task) (n : Nat) (x : VReg) : (t.wrV n x).secondary = t.secondary := by unfold Task.wrV; split <;> rfl
@[simp] theorem Task.wrV_faults (t : Task) (n : Nat) (x : VReg) : (t.wrV n x).faults = t.faults := by unfold Task.wrV; split <;> rfl
@[simp] theorem Task.wrV_dataErr (t : Task) (n : Nat) (x : VReg) : (t.wrV n x).dataErr = t.dataErr := by unfold Task.wrV; split <;> rfl
@[simp] theorem Task.wrV_peerSent (t : Task) (n : Nat) (x : VReg) : (t.wrV n x).peerSent = t.peerSent := by unfold Task.wrV; split <;> rfl
@[simp] theorem Task.wrV_stored (t : Task) (n : Nat) (x : VReg) : (t.wrV n x).stored = t.stored := by unfold Task.wrV; split <;> rfl
@[simp] theorem Task.wrV_target (t : Task) (n : Nat) (x : VReg) : (t.wrV n x).target = t.target := by unfold Task.wrV; split <;> rfl
@[simp] theorem Task.wrV_oldCore (t : Task) (n : Nat) (x : VReg) : (t.wrV n x).oldCore = t.oldCore := by unfold Task.wrV; split <;> rfl
@[simp] theorem Task.wrV_message (t : Task) (n : Nat) (x : VReg) : (t.wrV n x).message = t.message := by unfold Task.wrV; split <;> rfl
@[simp] theorem Task.wrV_placed (t : Task) (n : Nat) (x : VReg) : (t.wrV n x).placed = t.placed := by unfold Task.wrV; split <;> rfl
@[simp] theorem Task.wrV_transit (t : Task) (n : Nat) (x : VReg) : (t.wrV n x).transit = t.transit := by unfold Task.wrV; split <;> rfl
@[simp] theorem Task.wrV_qwait (t : Task) (n : Nat) (x : VReg) : (t.wrV n x).qwait = t.qwait := by unfold Task.wrV; split <;> rfl
@[simp] theorem Task.wrV_stopDue (t : Task) (n : Nat) (x : VReg) : (t.wrV n x).stopDue = t.stopDue := by unfold Task.wrV; split <;> rfl
@[simp] theorem Task.wrV_stopRec (t : Task) (n : Nat) (x : VReg) : (t.wrV n x).stopRec = t.stopRec := by unfold Task.wrV; split <;> rfl
@[simp] theorem Task.wrV_sender (t : Task) (n : Nat) (x : VReg) : (t.wrV n x).sender = t.sender := by unfold Task.wrV; split <;> rfl
@[simp] theorem Task.wrP_tid (t : Task) (n : BitVec 3) (x : Pred) : (t.wrP n x).tid = t.tid := by unfold Task.wrP; split <;> rfl
@[simp] theorem Task.wrP_cstate (t : Task) (n : BitVec 3) (x : Pred) : (t.wrP n x).cstate = t.cstate := by unfold Task.wrP; split <;> rfl
@[simp] theorem Task.wrP_core (t : Task) (n : BitVec 3) (x : Pred) : (t.wrP n x).core = t.core := by unfold Task.wrP; split <;> rfl
@[simp] theorem Task.wrP_slot (t : Task) (n : BitVec 3) (x : Pred) : (t.wrP n x).slot = t.slot := by unfold Task.wrP; split <;> rfl
@[simp] theorem Task.wrP_parked (t : Task) (n : BitVec 3) (x : Pred) : (t.wrP n x).parked = t.parked := by unfold Task.wrP; split <;> rfl
@[simp] theorem Task.wrP_wait (t : Task) (n : BitVec 3) (x : Pred) : (t.wrP n x).wait = t.wait := by unfold Task.wrP; split <;> rfl
@[simp] theorem Task.wrP_pc (t : Task) (n : BitVec 3) (x : Pred) : (t.wrP n x).pc = t.pc := by unfold Task.wrP; split <;> rfl
@[simp] theorem Task.wrP_g (t : Task) (n : BitVec 3) (x : Pred) : (t.wrP n x).g = t.g := by unfold Task.wrP; split <;> rfl
@[simp] theorem Task.wrP_v (t : Task) (n : BitVec 3) (x : Pred) : (t.wrP n x).v = t.v := by unfold Task.wrP; split <;> rfl
@[simp] theorem Task.wrP_streams (t : Task) (n : BitVec 3) (x : Pred) : (t.wrP n x).streams = t.streams := by unfold Task.wrP; split <;> rfl
@[simp] theorem Task.wrP_ports (t : Task) (n : BitVec 3) (x : Pred) : (t.wrP n x).ports = t.ports := by unfold Task.wrP; split <;> rfl
@[simp] theorem Task.wrP_stat (t : Task) (n : BitVec 3) (x : Pred) : (t.wrP n x).stat = t.stat := by unfold Task.wrP; split <;> rfl
@[simp] theorem Task.wrP_epc (t : Task) (n : BitVec 3) (x : Pred) : (t.wrP n x).epc = t.epc := by unfold Task.wrP; split <;> rfl
@[simp] theorem Task.wrP_ecause (t : Task) (n : BitVec 3) (x : Pred) : (t.wrP n x).ecause = t.ecause := by unfold Task.wrP; split <;> rfl
@[simp] theorem Task.wrP_einfo0 (t : Task) (n : BitVec 3) (x : Pred) : (t.wrP n x).einfo0 = t.einfo0 := by unfold Task.wrP; split <;> rfl
@[simp] theorem Task.wrP_einfo1 (t : Task) (n : BitVec 3) (x : Pred) : (t.wrP n x).einfo1 = t.einfo1 := by unfold Task.wrP; split <;> rfl
@[simp] theorem Task.wrP_einfo2 (t : Task) (n : BitVec 3) (x : Pred) : (t.wrP n x).einfo2 = t.einfo2 := by unfold Task.wrP; split <;> rfl
@[simp] theorem Task.wrP_estat (t : Task) (n : BitVec 3) (x : Pred) : (t.wrP n x).estat = t.estat := by unfold Task.wrP; split <;> rfl
@[simp] theorem Task.wrP_tvec (t : Task) (n : BitVec 3) (x : Pred) : (t.wrP n x).tvec = t.tvec := by unfold Task.wrP; split <;> rfl
@[simp] theorem Task.wrP_ctxa (t : Task) (n : BitVec 3) (x : Pred) : (t.wrP n x).ctxa = t.ctxa := by unfold Task.wrP; split <;> rfl
@[simp] theorem Task.wrP_fsr (t : Task) (n : BitVec 3) (x : Pred) : (t.wrP n x).fsr = t.fsr := by unfold Task.wrP; split <;> rfl
@[simp] theorem Task.wrP_seed (t : Task) (n : BitVec 3) (x : Pred) : (t.wrP n x).seed = t.seed := by unfold Task.wrP; split <;> rfl
@[simp] theorem Task.wrP_twin (t : Task) (n : BitVec 3) (x : Pred) : (t.wrP n x).twin = t.twin := by unfold Task.wrP; split <;> rfl
@[simp] theorem Task.wrP_jsr (t : Task) (n : BitVec 3) (x : Pred) : (t.wrP n x).jsr = t.jsr := by unfold Task.wrP; split <;> rfl
@[simp] theorem Task.wrP_rank (t : Task) (n : BitVec 3) (x : Pred) : (t.wrP n x).rank = t.rank := by unfold Task.wrP; split <;> rfl
@[simp] theorem Task.wrP_kcur (t : Task) (n : BitVec 3) (x : Pred) : (t.wrP n x).kcur = t.kcur := by unfold Task.wrP; split <;> rfl
@[simp] theorem Task.wrP_aspace (t : Task) (n : BitVec 3) (x : Pred) : (t.wrP n x).aspace = t.aspace := by unfold Task.wrP; split <;> rfl
@[simp] theorem Task.wrP_groups (t : Task) (n : BitVec 3) (x : Pred) : (t.wrP n x).groups = t.groups := by unfold Task.wrP; split <;> rfl
@[simp] theorem Task.wrP_tile (t : Task) (n : BitVec 3) (x : Pred) : (t.wrP n x).tile = t.tile := by unfold Task.wrP; split <;> rfl
@[simp] theorem Task.wrP_saved (t : Task) (n : BitVec 3) (x : Pred) : (t.wrP n x).saved = t.saved := by unfold Task.wrP; split <;> rfl
@[simp] theorem Task.wrP_dump (t : Task) (n : BitVec 3) (x : Pred) : (t.wrP n x).dump = t.dump := by unfold Task.wrP; split <;> rfl
@[simp] theorem Task.wrP_secondary (t : Task) (n : BitVec 3) (x : Pred) : (t.wrP n x).secondary = t.secondary := by unfold Task.wrP; split <;> rfl
@[simp] theorem Task.wrP_faults (t : Task) (n : BitVec 3) (x : Pred) : (t.wrP n x).faults = t.faults := by unfold Task.wrP; split <;> rfl
@[simp] theorem Task.wrP_dataErr (t : Task) (n : BitVec 3) (x : Pred) : (t.wrP n x).dataErr = t.dataErr := by unfold Task.wrP; split <;> rfl
@[simp] theorem Task.wrP_peerSent (t : Task) (n : BitVec 3) (x : Pred) : (t.wrP n x).peerSent = t.peerSent := by unfold Task.wrP; split <;> rfl
@[simp] theorem Task.wrP_stored (t : Task) (n : BitVec 3) (x : Pred) : (t.wrP n x).stored = t.stored := by unfold Task.wrP; split <;> rfl
@[simp] theorem Task.wrP_target (t : Task) (n : BitVec 3) (x : Pred) : (t.wrP n x).target = t.target := by unfold Task.wrP; split <;> rfl
@[simp] theorem Task.wrP_oldCore (t : Task) (n : BitVec 3) (x : Pred) : (t.wrP n x).oldCore = t.oldCore := by unfold Task.wrP; split <;> rfl
@[simp] theorem Task.wrP_message (t : Task) (n : BitVec 3) (x : Pred) : (t.wrP n x).message = t.message := by unfold Task.wrP; split <;> rfl
@[simp] theorem Task.wrP_placed (t : Task) (n : BitVec 3) (x : Pred) : (t.wrP n x).placed = t.placed := by unfold Task.wrP; split <;> rfl
@[simp] theorem Task.wrP_transit (t : Task) (n : BitVec 3) (x : Pred) : (t.wrP n x).transit = t.transit := by unfold Task.wrP; split <;> rfl
@[simp] theorem Task.wrP_qwait (t : Task) (n : BitVec 3) (x : Pred) : (t.wrP n x).qwait = t.qwait := by unfold Task.wrP; split <;> rfl
@[simp] theorem Task.wrP_stopDue (t : Task) (n : BitVec 3) (x : Pred) : (t.wrP n x).stopDue = t.stopDue := by unfold Task.wrP; split <;> rfl
@[simp] theorem Task.wrP_stopRec (t : Task) (n : BitVec 3) (x : Pred) : (t.wrP n x).stopRec = t.stopRec := by unfold Task.wrP; split <;> rfl
@[simp] theorem Task.wrP_sender (t : Task) (n : BitVec 3) (x : Pred) : (t.wrP n x).sender = t.sender := by unfold Task.wrP; split <;> rfl
@[simp] theorem Task.setStream_tid (t : Task) (n : BitVec 2) (x : Stream) : (t.setStream n x).tid = t.tid := rfl
@[simp] theorem Task.setStream_cstate (t : Task) (n : BitVec 2) (x : Stream) : (t.setStream n x).cstate = t.cstate := rfl
@[simp] theorem Task.setStream_core (t : Task) (n : BitVec 2) (x : Stream) : (t.setStream n x).core = t.core := rfl
@[simp] theorem Task.setStream_slot (t : Task) (n : BitVec 2) (x : Stream) : (t.setStream n x).slot = t.slot := rfl
@[simp] theorem Task.setStream_parked (t : Task) (n : BitVec 2) (x : Stream) : (t.setStream n x).parked = t.parked := rfl
@[simp] theorem Task.setStream_wait (t : Task) (n : BitVec 2) (x : Stream) : (t.setStream n x).wait = t.wait := rfl
@[simp] theorem Task.setStream_pc (t : Task) (n : BitVec 2) (x : Stream) : (t.setStream n x).pc = t.pc := rfl
@[simp] theorem Task.setStream_g (t : Task) (n : BitVec 2) (x : Stream) : (t.setStream n x).g = t.g := rfl
@[simp] theorem Task.setStream_v (t : Task) (n : BitVec 2) (x : Stream) : (t.setStream n x).v = t.v := rfl
@[simp] theorem Task.setStream_p (t : Task) (n : BitVec 2) (x : Stream) : (t.setStream n x).p = t.p := rfl
@[simp] theorem Task.setStream_ports (t : Task) (n : BitVec 2) (x : Stream) : (t.setStream n x).ports = t.ports := rfl
@[simp] theorem Task.setStream_stat (t : Task) (n : BitVec 2) (x : Stream) : (t.setStream n x).stat = t.stat := rfl
@[simp] theorem Task.setStream_epc (t : Task) (n : BitVec 2) (x : Stream) : (t.setStream n x).epc = t.epc := rfl
@[simp] theorem Task.setStream_ecause (t : Task) (n : BitVec 2) (x : Stream) : (t.setStream n x).ecause = t.ecause := rfl
@[simp] theorem Task.setStream_einfo0 (t : Task) (n : BitVec 2) (x : Stream) : (t.setStream n x).einfo0 = t.einfo0 := rfl
@[simp] theorem Task.setStream_einfo1 (t : Task) (n : BitVec 2) (x : Stream) : (t.setStream n x).einfo1 = t.einfo1 := rfl
@[simp] theorem Task.setStream_einfo2 (t : Task) (n : BitVec 2) (x : Stream) : (t.setStream n x).einfo2 = t.einfo2 := rfl
@[simp] theorem Task.setStream_estat (t : Task) (n : BitVec 2) (x : Stream) : (t.setStream n x).estat = t.estat := rfl
@[simp] theorem Task.setStream_tvec (t : Task) (n : BitVec 2) (x : Stream) : (t.setStream n x).tvec = t.tvec := rfl
@[simp] theorem Task.setStream_ctxa (t : Task) (n : BitVec 2) (x : Stream) : (t.setStream n x).ctxa = t.ctxa := rfl
@[simp] theorem Task.setStream_fsr (t : Task) (n : BitVec 2) (x : Stream) : (t.setStream n x).fsr = t.fsr := rfl
@[simp] theorem Task.setStream_seed (t : Task) (n : BitVec 2) (x : Stream) : (t.setStream n x).seed = t.seed := rfl
@[simp] theorem Task.setStream_twin (t : Task) (n : BitVec 2) (x : Stream) : (t.setStream n x).twin = t.twin := rfl
@[simp] theorem Task.setStream_jsr (t : Task) (n : BitVec 2) (x : Stream) : (t.setStream n x).jsr = t.jsr := rfl
@[simp] theorem Task.setStream_rank (t : Task) (n : BitVec 2) (x : Stream) : (t.setStream n x).rank = t.rank := rfl
@[simp] theorem Task.setStream_kcur (t : Task) (n : BitVec 2) (x : Stream) : (t.setStream n x).kcur = t.kcur := rfl
@[simp] theorem Task.setStream_aspace (t : Task) (n : BitVec 2) (x : Stream) : (t.setStream n x).aspace = t.aspace := rfl
@[simp] theorem Task.setStream_groups (t : Task) (n : BitVec 2) (x : Stream) : (t.setStream n x).groups = t.groups := rfl
@[simp] theorem Task.setStream_tile (t : Task) (n : BitVec 2) (x : Stream) : (t.setStream n x).tile = t.tile := rfl
@[simp] theorem Task.setStream_saved (t : Task) (n : BitVec 2) (x : Stream) : (t.setStream n x).saved = t.saved := rfl
@[simp] theorem Task.setStream_dump (t : Task) (n : BitVec 2) (x : Stream) : (t.setStream n x).dump = t.dump := rfl
@[simp] theorem Task.setStream_secondary (t : Task) (n : BitVec 2) (x : Stream) : (t.setStream n x).secondary = t.secondary := rfl
@[simp] theorem Task.setStream_faults (t : Task) (n : BitVec 2) (x : Stream) : (t.setStream n x).faults = t.faults := rfl
@[simp] theorem Task.setStream_dataErr (t : Task) (n : BitVec 2) (x : Stream) : (t.setStream n x).dataErr = t.dataErr := rfl
@[simp] theorem Task.setStream_peerSent (t : Task) (n : BitVec 2) (x : Stream) : (t.setStream n x).peerSent = t.peerSent := rfl
@[simp] theorem Task.setStream_stored (t : Task) (n : BitVec 2) (x : Stream) : (t.setStream n x).stored = t.stored := rfl
@[simp] theorem Task.setStream_target (t : Task) (n : BitVec 2) (x : Stream) : (t.setStream n x).target = t.target := rfl
@[simp] theorem Task.setStream_oldCore (t : Task) (n : BitVec 2) (x : Stream) : (t.setStream n x).oldCore = t.oldCore := rfl
@[simp] theorem Task.setStream_message (t : Task) (n : BitVec 2) (x : Stream) : (t.setStream n x).message = t.message := rfl
@[simp] theorem Task.setStream_placed (t : Task) (n : BitVec 2) (x : Stream) : (t.setStream n x).placed = t.placed := rfl
@[simp] theorem Task.setStream_transit (t : Task) (n : BitVec 2) (x : Stream) : (t.setStream n x).transit = t.transit := rfl
@[simp] theorem Task.setStream_qwait (t : Task) (n : BitVec 2) (x : Stream) : (t.setStream n x).qwait = t.qwait := rfl
@[simp] theorem Task.setStream_stopDue (t : Task) (n : BitVec 2) (x : Stream) : (t.setStream n x).stopDue = t.stopDue := rfl
@[simp] theorem Task.setStream_stopRec (t : Task) (n : BitVec 2) (x : Stream) : (t.setStream n x).stopRec = t.stopRec := rfl
@[simp] theorem Task.setStream_sender (t : Task) (n : BitVec 2) (x : Stream) : (t.setStream n x).sender = t.sender := rfl
@[simp] theorem Task.setPort_tid (t : Task) (n : BitVec 2) (x : Port) : (t.setPort n x).tid = t.tid := rfl
@[simp] theorem Task.setPort_cstate (t : Task) (n : BitVec 2) (x : Port) : (t.setPort n x).cstate = t.cstate := rfl
@[simp] theorem Task.setPort_core (t : Task) (n : BitVec 2) (x : Port) : (t.setPort n x).core = t.core := rfl
@[simp] theorem Task.setPort_slot (t : Task) (n : BitVec 2) (x : Port) : (t.setPort n x).slot = t.slot := rfl
@[simp] theorem Task.setPort_parked (t : Task) (n : BitVec 2) (x : Port) : (t.setPort n x).parked = t.parked := rfl
@[simp] theorem Task.setPort_wait (t : Task) (n : BitVec 2) (x : Port) : (t.setPort n x).wait = t.wait := rfl
@[simp] theorem Task.setPort_pc (t : Task) (n : BitVec 2) (x : Port) : (t.setPort n x).pc = t.pc := rfl
@[simp] theorem Task.setPort_g (t : Task) (n : BitVec 2) (x : Port) : (t.setPort n x).g = t.g := rfl
@[simp] theorem Task.setPort_v (t : Task) (n : BitVec 2) (x : Port) : (t.setPort n x).v = t.v := rfl
@[simp] theorem Task.setPort_p (t : Task) (n : BitVec 2) (x : Port) : (t.setPort n x).p = t.p := rfl
@[simp] theorem Task.setPort_streams (t : Task) (n : BitVec 2) (x : Port) : (t.setPort n x).streams = t.streams := rfl
@[simp] theorem Task.setPort_stat (t : Task) (n : BitVec 2) (x : Port) : (t.setPort n x).stat = t.stat := rfl
@[simp] theorem Task.setPort_epc (t : Task) (n : BitVec 2) (x : Port) : (t.setPort n x).epc = t.epc := rfl
@[simp] theorem Task.setPort_ecause (t : Task) (n : BitVec 2) (x : Port) : (t.setPort n x).ecause = t.ecause := rfl
@[simp] theorem Task.setPort_einfo0 (t : Task) (n : BitVec 2) (x : Port) : (t.setPort n x).einfo0 = t.einfo0 := rfl
@[simp] theorem Task.setPort_einfo1 (t : Task) (n : BitVec 2) (x : Port) : (t.setPort n x).einfo1 = t.einfo1 := rfl
@[simp] theorem Task.setPort_einfo2 (t : Task) (n : BitVec 2) (x : Port) : (t.setPort n x).einfo2 = t.einfo2 := rfl
@[simp] theorem Task.setPort_estat (t : Task) (n : BitVec 2) (x : Port) : (t.setPort n x).estat = t.estat := rfl
@[simp] theorem Task.setPort_tvec (t : Task) (n : BitVec 2) (x : Port) : (t.setPort n x).tvec = t.tvec := rfl
@[simp] theorem Task.setPort_ctxa (t : Task) (n : BitVec 2) (x : Port) : (t.setPort n x).ctxa = t.ctxa := rfl
@[simp] theorem Task.setPort_fsr (t : Task) (n : BitVec 2) (x : Port) : (t.setPort n x).fsr = t.fsr := rfl
@[simp] theorem Task.setPort_seed (t : Task) (n : BitVec 2) (x : Port) : (t.setPort n x).seed = t.seed := rfl
@[simp] theorem Task.setPort_twin (t : Task) (n : BitVec 2) (x : Port) : (t.setPort n x).twin = t.twin := rfl
@[simp] theorem Task.setPort_jsr (t : Task) (n : BitVec 2) (x : Port) : (t.setPort n x).jsr = t.jsr := rfl
@[simp] theorem Task.setPort_rank (t : Task) (n : BitVec 2) (x : Port) : (t.setPort n x).rank = t.rank := rfl
@[simp] theorem Task.setPort_kcur (t : Task) (n : BitVec 2) (x : Port) : (t.setPort n x).kcur = t.kcur := rfl
@[simp] theorem Task.setPort_aspace (t : Task) (n : BitVec 2) (x : Port) : (t.setPort n x).aspace = t.aspace := rfl
@[simp] theorem Task.setPort_groups (t : Task) (n : BitVec 2) (x : Port) : (t.setPort n x).groups = t.groups := rfl
@[simp] theorem Task.setPort_tile (t : Task) (n : BitVec 2) (x : Port) : (t.setPort n x).tile = t.tile := rfl
@[simp] theorem Task.setPort_saved (t : Task) (n : BitVec 2) (x : Port) : (t.setPort n x).saved = t.saved := rfl
@[simp] theorem Task.setPort_dump (t : Task) (n : BitVec 2) (x : Port) : (t.setPort n x).dump = t.dump := rfl
@[simp] theorem Task.setPort_secondary (t : Task) (n : BitVec 2) (x : Port) : (t.setPort n x).secondary = t.secondary := rfl
@[simp] theorem Task.setPort_faults (t : Task) (n : BitVec 2) (x : Port) : (t.setPort n x).faults = t.faults := rfl
@[simp] theorem Task.setPort_dataErr (t : Task) (n : BitVec 2) (x : Port) : (t.setPort n x).dataErr = t.dataErr := rfl
@[simp] theorem Task.setPort_peerSent (t : Task) (n : BitVec 2) (x : Port) : (t.setPort n x).peerSent = t.peerSent := rfl
@[simp] theorem Task.setPort_stored (t : Task) (n : BitVec 2) (x : Port) : (t.setPort n x).stored = t.stored := rfl
@[simp] theorem Task.setPort_target (t : Task) (n : BitVec 2) (x : Port) : (t.setPort n x).target = t.target := rfl
@[simp] theorem Task.setPort_oldCore (t : Task) (n : BitVec 2) (x : Port) : (t.setPort n x).oldCore = t.oldCore := rfl
@[simp] theorem Task.setPort_message (t : Task) (n : BitVec 2) (x : Port) : (t.setPort n x).message = t.message := rfl
@[simp] theorem Task.setPort_placed (t : Task) (n : BitVec 2) (x : Port) : (t.setPort n x).placed = t.placed := rfl
@[simp] theorem Task.setPort_transit (t : Task) (n : BitVec 2) (x : Port) : (t.setPort n x).transit = t.transit := rfl
@[simp] theorem Task.setPort_qwait (t : Task) (n : BitVec 2) (x : Port) : (t.setPort n x).qwait = t.qwait := rfl
@[simp] theorem Task.setPort_stopDue (t : Task) (n : BitVec 2) (x : Port) : (t.setPort n x).stopDue = t.stopDue := rfl
@[simp] theorem Task.setPort_stopRec (t : Task) (n : BitVec 2) (x : Port) : (t.setPort n x).stopRec = t.stopRec := rfl
@[simp] theorem Task.setPort_sender (t : Task) (n : BitVec 2) (x : Port) : (t.setPort n x).sender = t.sender := rfl

end Sys2Proof.Machine
end

