-- ==== Sys2Proof/Laws/Ops.lean ====
section
/-! SUPPORT. What each shared operation over registers, ports, exceptions and the end of an instruction can do. -/

namespace Sys2Proof.Machine

open Sys2Proof

/-! ### Registers (R8) -/

@[simp] theorem Task.rd_zero (t : Task) : t.rd 0 = 0 := rfl

/-- A scalar register after a write: g0 reads 0, the register written its new value, every other one its old value. -/
theorem Task.rd_wr (t : Task) (n : BitVec 5) (x : Word) (k : BitVec 5) :
    (t.wr n x).rd k = if k = n ∧ k ≠ 0 then x else t.rd k := by
  by_cases hk : k = 0
  · subst hk; rw [if_neg (fun h => h.2 rfl)]; rfl
  · by_cases hn : n = 0
    · subst hn; rw [if_neg (fun h => hk h.1)]; rfl
    · have : n.toNat = k.toNat ↔ k = n := by rw [BitVec.toNat_inj]; exact eq_comm
      simp only [Task.rd, Task.wr, if_neg hn, Vector.getElem_set, this, ne_eq, hk, not_false_eq_true, and_true, if_false]

/-- The vector file after a write. -/
theorem Task.rdV_wrV (t : Task) (n : Nat) (x : VReg) (k : Nat) :
    (t.wrV n x).rdV k = if k = n ∧ k < 32 then x else t.rdV k := by
  by_cases hn : n < 32 <;> by_cases hk : k < 32 <;> simp only [Task.rdV, Task.wrV, hn, hk, dite_true, dite_false]
  · simp only [Vector.getElem_set, and_true, @eq_comm _ n k]
  · simp
  · have : k ≠ n := by omega
    simp [this]
  · simp

/-- The port of a task after a change of one. -/
theorem Task.port_setPort (t : Task) (n k : BitVec 2) (x : Port) : (t.setPort n x).port k = if k = n then x else t.port k := by
  have : n.toNat = k.toNat ↔ k = n := by rw [BitVec.toNat_inj]; exact eq_comm
  simp only [Task.port, Task.setPort, Vector.getElem_set, this]

/-- The stream of a task after a change of one. -/
theorem Task.stream_setStream (t : Task) (n k : BitVec 2) (x : Stream) :
    (t.setStream n x).stream k = if k = n then x else t.stream k := by
  have : n.toNat = k.toNat ↔ k = n := by rw [BitVec.toNat_inj]; exact eq_comm
  simp only [Task.stream, Task.setStream, Vector.getElem_set, this]

/-! ### Cores and clusters -/

theorem State.core_setCore {s : State} (h : smapWf {} s.cores = true) (c : Nat) (x : Core) (k : Nat) :
    (s.setCore c x).core k = if k = c then x else s.core k := by
  have h := (smapWf_iff.mp h).1
  split
  · next e => subst e; exact smapGet_set_self h k x
  · next e => exact smapGet_set_ne h e x

theorem State.cluster_setCluster {s : State} (h : smapWf {} s.clusters = true) (c : Nat) (x : Cluster) (k : Nat) :
    (s.setCluster c x).cluster k = if k = c then x else s.cluster k := by
  have h := (smapWf_iff.mp h).1
  split
  · next e => subst e; exact smapGet_set_self h k x
  · next e => exact smapGet_set_ne h e x

theorem State.setCore_cores_wf {s : State} (h : smapWf {} s.cores = true) (c : Nat) (x : Core) :
    smapWf {} (s.setCore c x).cores = true := smapSet_wf h c x

theorem State.setCluster_clusters_wf {s : State} (h : smapWf {} s.clusters = true) (c : Nat) (x : Cluster) :
    smapWf {} (s.setCluster c x).clusters = true := smapSet_wf h c x

/-! ### Ports (R53, R262, R371) -/

/-- Consuming a word touches the ports of the executing task and its core's log. -/
theorem State.pop_eq (s : State) (q : BitVec 5) :
    ∃ cs ps, s.pop q = { s with cores := cs, task := { s.task with ports := ps } } := by
  unfold State.pop
  simp only
  split
  · exact ⟨s.cores, s.task.ports, rfl⟩
  · exact ⟨_, _, rfl⟩

/-- The named port has lost the word at its head; every other port is as before. -/
theorem State.pop_port (s : State) (q : BitVec 5) (n : BitVec 2) :
    (s.pop q).task.port n =
      if n = q.setWidth 2 then { (s.task.port n) with queue := (s.task.port n).queue.drop 1 } else s.task.port n := by
  unfold State.pop
  simp only
  split
  · next h =>
    split
    · next e => subst e; rw [h]; simp only [List.drop_nil]; rw [← h]
    · rfl
  · next w rest h =>
    simp only [State.setTask_task, Task.port_setPort]
    split
    · next e => subst e; rw [h]; rfl
    · rfl

/-- A consumption keeps the map of cores canonical. -/
theorem State.pop_cores_wf {s : State} (h : smapWf {} s.cores = true) (q : BitVec 5) : smapWf {} (s.pop q).cores = true := by
  unfold State.pop
  simp only
  split
  · exact h
  · exact smapSet_wf h _ _

/-- What consuming a word leaves of each core: all but its log. -/
theorem State.pop_core {s : State} (h : smapWf {} s.cores = true) (q : BitVec 5) (k : Nat) :
    ∃ l, (s.pop q).core k = { s.core k with consumed := l } ∧ (k ≠ s.task.core → l = (s.core k).consumed) := by
  unfold State.pop
  simp only
  split
  · exact ⟨_, rfl, fun _ => rfl⟩
  · simp only [State.setTask_core]
    rw [State.core_setCore h]
    split
    · next e => subst e; exact ⟨_, rfl, fun h => absurd rfl h⟩
    · exact ⟨_, rfl, fun _ => rfl⟩

/-- Consuming the words of the source positions touches the ports of the executing task and its core's log. -/
theorem State.take_eq (s : State) (o : Ops) :
    ∃ cs ps, s.take o = { s with cores := cs, task := { s.task with ports := ps } } := by
  have step : ∀ (b : Bool) (q : BitVec 5) (r : State), (∃ cs ps, r = { s with cores := cs, task := { s.task with ports := ps } }) →
      ∃ cs ps, (if b then r.pop q else r) = { s with cores := cs, task := { s.task with ports := ps } } := by
    rintro b q r ⟨cs, ps, rfl⟩
    cases b
    · exact ⟨cs, ps, rfl⟩
    · obtain ⟨cs', ps', h⟩ := State.pop_eq { s with cores := cs, task := { s.task with ports := ps } } q
      exact ⟨cs', ps', h⟩
  exact step o.x.pc o.x.c _ (step o.x.pb o.b _ (step o.x.pa o.a _ ⟨s.cores, s.task.ports, rfl⟩))

theorem State.take_cores_wf {s : State} (h : smapWf {} s.cores = true) (o : Ops) : smapWf {} (s.take o).cores = true := by
  have step : ∀ (b : Bool) (q : BitVec 5) (r : State), smapWf {} r.cores = true →
      smapWf {} (if b then r.pop q else r).cores = true := by
    intro b q r hr
    cases b
    · exact hr
    · exact State.pop_cores_wf hr q
  exact step o.x.pc o.x.c _ (step o.x.pb o.b _ (step o.x.pa o.a _ h))

/-- A source position that names no port reads the register. -/
@[simp] theorem State.srcA_register (s : State) (o : Ops) (h : o.x.pa = false) : s.srcA o = .ok (s.task.rd o.a) := by
  simp [State.srcA, h]
@[simp] theorem State.srcB_register (s : State) (o : Ops) (h : o.x.pb = false) : s.srcB o = .ok (s.task.rd o.b) := by
  simp [State.srcB, h]
@[simp] theorem State.srcC_register (s : State) (o : Ops) (h : o.x.pc = false) : s.srcC o = .ok (s.task.rd o.x.c) := by
  simp [State.srcC, h]
@[simp] theorem State.srcD_register (s : State) (o : Ops) (h : o.x.pd = false) : s.srcD o = .ok (s.task.rd o.d) := by
  simp [State.srcD, h]

/-- A port source gives the k-th word of the queue, or stalls. -/
theorem State.portWord_cases (s : State) (q : BitVec 5) (k : Nat) :
    (∃ w, (s.task.port (q.setWidth 2)).queue[k]? = some w ∧ s.portWord q k = .ok w.word.value) ∨
    ((s.task.port (q.setWidth 2)).queue[k]? = none ∧ s.portWord q k = .error (.wait .retry)) := by
  unfold State.portWord
  cases h : (s.task.port (q.setWidth 2)).queue[k]? with
  | none => exact .inr ⟨rfl, rfl⟩
  | some w => exact .inl ⟨w, rfl, rfl⟩

/-- Where d is a register, the result is written there; the instruction completes. -/
theorem State.complete_register (s : State) (o : Ops) (v : Word) (h : o.x.pd = false) :
    s.complete o v = .ok (((s.wr o.d v).take o).advance o) := by
  simp [State.complete, State.put, h, bind, Except.bind]

/-- Where d is a port, the result is sent through it first. -/
theorem State.complete_port (s : State) (o : Ops) (v : Word) (h : o.x.pd = true) (u : State)
    (hu : s.send (o.d.setWidth 2) v = .ok u) : s.complete o v = .ok ((u.take o).advance o) := by
  simp [State.complete, State.put, h, hu, bind, Except.bind]

/-- A word that cannot be sent keeps the instruction from completing, with nothing changed. -/
theorem State.complete_stopped (s : State) (o : Ops) (v : Word) (h : o.x.pd = true) (e : Stop)
    (he : s.send (o.d.setWidth 2) v = .error e) : s.complete o v = .error e := by
  simp [State.complete, State.put, h, he, bind, Except.bind]

/-- A word that goes to a peer is dropped by a router that does not admit its tenant (R367), or joins the unacknowledged words of its
core for that peer (R363); unless a sink sends it, its task then waits for the acceptance. -/
theorem State.sendPeer_cases {s u : State} {t : Task} {pkg : Nat} {w : PortWord} {sink : Bool} (h : s.sendPeer t pkg w sink = .ok u) :
    (∃ r, u = { s with drops := s.drops ++ [(r, t.tenant)] }) ∨
    ∃ x, (∃ seq, x.unacked = (smapGet {} s.peerTx (t.core * 4096 + pkg)).unacked ++ [(seq, w)]) ∧
      (u = { s with peerTx := smapSet {} s.peerTx (t.core * 4096 + pkg) x } ∨
        ∃ p : Task → Option PeerSend, u = ({ s with peerTx := smapSet {} s.peerTx (t.core * 4096 + pkg) x } : State).modTask t.tid fun t => { t with peerSent := p t }) := by
  unfold State.sendPeer at h
  simp only at h
  split at h
  · cases h
  · split at h
    · cases h
    · split at h
      · cases h; exact .inl ⟨_, rfl⟩
      · cases h
        refine .inr ?_
        cases sink
        · exact ⟨⟨_, _, _⟩, ⟨_, rfl⟩, .inr ⟨fun t => some { pc := t.pc, next := t.pc, key := _, seq := _ }, rfl⟩⟩
        · exact ⟨⟨_, _, _⟩, ⟨_, rfl⟩, .inl rfl⟩

/-- A word that goes to a core of the package is dropped by a router that does not admit its tenant (R367), or comes to the interface
of the core where the redirects end, after which the sender's table names that core (R244). -/
theorem State.sendCore_cases {s u : State} {t : Task} {e : Word} {w : PortWord} (h : s.sendCore t e w = .ok u) :
    (∃ r, u = { s with drops := s.drops ++ [(r, t.tenant)] }) ∨
    ∃ dest s1, s1.arrive dest w = some u ∧ (s1 = s ∨ ∃ l, s1 = s.setCore t.core { s.core t.core with ranks := l }) := by
  unfold State.sendCore at h
  simp only at h
  split at h
  · cases h
  · split at h
    · cases h; exact .inl ⟨_, rfl⟩
    · split at h
      · next u' hu =>
        cases h
        refine .inr ⟨_, _, hu, ?_⟩
        split
        · exact .inl rfl
        · exact .inr ⟨_, rfl⟩
      · cases h

/-- Where a word sent through a bound port can go (R261 to R263, R362, R366): to a peer, to a core of the package, or nowhere, with or
without a fault record. -/
theorem State.sendFrom_cases {s u : State} {t : Task} {n : BitVec 2} {v : Word} {sink : Bool} (h : s.sendFrom t n v sink = .ok u) :
    (t.port n).pb.getLsbD 63 = true ∧
    ((∃ pkg w, w.value = v ∧ s.sendPeer t pkg w sink = .ok u) ∨ u = s ∨
      (∃ x y, s.postRoom t.tenant = true ∧ u = s.postOwn t.tenant 3 0 t.tid 0 0 x y) ∨
      ∃ e w, w.value = v ∧ s.sendCore t e w = .ok u) := by
  unfold State.sendFrom at h
  simp only at h
  split at h
  · cases h
  · next hb =>
    refine ⟨by simpa using hb, ?_⟩
    split at h
    · cases h
    · split at h
      · exact .inl ⟨_, _, rfl, h⟩
      · split at h
        · cases h; exact .inr (.inl rfl)
        · split at h
          · exact .inr (.inr (.inr ⟨_, _, rfl, h⟩))
          · split at h
            · next hp => cases h; exact .inr (.inr (.inl ⟨_, _, hp, rfl⟩))
            · cases h

/-! ### Exceptions (R239, R241, R253) -/

/-- A trap with a valid vector outside a handler. -/
theorem State.trapAt_handled (s : State) (t : Trap) (epc : Word) (hv : s.task.tvec.getLsbD 0 = true)
    (ht : s.task.stat.getLsbD 1 = false) :
    s.trapAt t epc = s.setTask { s.task with
      estat := s.task.stat, epc := epc &&& ~~~(3 : Word), ecause := trapCause t, einfo0 := t.info0, einfo1 := t.info1,
      einfo2 := t.info2, stat := s.task.stat ||| 3, pc := s.task.tvec &&& ~~~(3 : Word), cstate := .running, wait := .none, stored := none } := by
  unfold State.trapAt
  simp only
  rw [if_neg (by rintro (h | h); exacts [absurd (hv.symm.trans h) (by decide), absurd (ht.symm.trans h) (by decide)])]
  rfl

/-- A trap without a valid vector, or inside a handler. -/
theorem State.trapAt_fatal (s : State) (t : Trap) (epc : Word)
    (h : s.task.tvec.getLsbD 0 = false ∨ s.task.stat.getLsbD 1 = true) :
    s.trapAt t epc = (s.setTask (s.task.saveTrap t (epc &&& ~~~(3 : Word)))).dumpTask s.task.tid (trapDump t (epc &&& ~~~(3 : Word))) true := by
  unfold State.trapAt
  simp only
  rw [if_pos h]

/-- After a trap that is not fatal the task runs, as a supervisor, in a handler. -/
theorem State.trapAt_handled_mode (s : State) (t : Trap) (epc : Word) (hv : s.task.tvec.getLsbD 0 = true)
    (ht : s.task.stat.getLsbD 1 = false) :
    (s.trapAt t epc).task.sup = true ∧ (s.trapAt t epc).task.stat.getLsbD 1 = true ∧
      (s.trapAt t epc).task.cstate = .running := by
  rw [State.trapAt_handled s t epc hv ht]
  refine ⟨?_, ?_, rfl⟩ <;> simp [Task.sup]

@[simp] theorem State.eret_pc (s : State) : s.eret.task.pc = s.task.epc := rfl
@[simp] theorem State.eret_stat (s : State) : s.eret.task.stat = s.task.estat := rfl

/-- A return from a trap handler goes back to the mode and the address that the trap saved. -/
theorem State.eret_trapAt (s : State) (t : Trap) (epc : Word) (hv : s.task.tvec.getLsbD 0 = true)
    (ht : s.task.stat.getLsbD 1 = false) :
    (s.trapAt t epc).eret.task.stat = s.task.stat ∧ (s.trapAt t epc).eret.task.pc = epc &&& ~~~(3 : Word) := by
  rw [State.trapAt_handled s t epc hv ht]
  exact ⟨rfl, rfl⟩

/-! ### The end of an instruction -/

@[simp] theorem State.finish_ok (s t : State) (i : Instr) : s.finish i (.ok t) = t := rfl
@[simp] theorem State.finish_trap (s : State) (i : Instr) (t : Trap) :
    s.finish i (.error (.trap t)) = s.trap (trapWord t i.word) := rfl
/-- A stall of an instruction whose destination port, if it has one, is bound. -/
theorem State.finish_wait (s : State) (i : Instr) (w : Wait) (h : s.unbound i = false) : s.finish i (.error (.wait w)) = s.stall w := by
  simp [State.finish, h]
/-- An instruction whose destination port is not bound traps where it would wait (R261). -/
theorem State.finish_unbound (s : State) (i : Instr) (w : Wait) (h : s.unbound i = true) :
    s.finish i (.error (.wait w)) = s.trap (trapWord { kind := 2 } i.word) := by
  simp [State.finish, h]
@[simp] theorem State.finish_park (s : State) (i : Instr) (va : Word) (level : Nat) (code : BitVec 8) :
    s.finish i (.error (.park va level code)) = s.parkGroup va level code := rfl
@[simp] theorem State.finish_data (s : State) (i : Instr) (va : Word) (pa : Nat) :
    s.finish i (.error (.data va pa)) = s.spoilt i.ops va pa := rfl
/-- A stall in the middle of its stores keeps those that the instruction has made (R373). -/
@[simp] theorem State.finish_partly (s t : State) (i : Instr) (w : Wait) : s.finish i (.error (.partly t w)) = t.stall w := rfl
@[simp] theorem State.run_eq (s : State) (i : Instr) (r : Except Stop State) : s.run i r = .next (s.finish i r) := rfl

@[simp] theorem State.pause_task (s : State) (w : Wait) : (s.pause w).task = { s.task with cstate := .waiting, wait := w } := rfl
/-- A turn at a mailbox or at a stage queue touches no task. -/
@[simp] theorem State.awaitMail_task (s : State) (pa : Nat) (w : Waiter) : (s.awaitMail pa w).task = s.task := rfl
@[simp] theorem State.awaitPost_task (s : State) (tenant : BitVec 12) (kid : BitVec 6) (g : Nat) (w : Waiter) :
    (s.awaitPost tenant kid g w).task = s.task := rfl
/-- Only a wait for a frame in transit depends on where the task stood. -/
theorem Wait.begin_eq (old : Wait) (clk : Nat) (w : Wait) (h : ∀ k b c, w ≠ .transit k b c) : old.begin clk w = w := by
  cases w
  case transit k b c => exact absurd rfl (h k b c)
  all_goals rfl
/-- A stall changes where the task stands and what it waits for. -/
@[simp] theorem State.stall_task (s : State) (w : Wait) :
    (s.stall w).task = { s.task with cstate := .waiting, wait := s.task.wait.begin s.clk w } := by
  cases w <;> rfl
/-- A stall at neither a mailbox nor a stage queue changes nothing else. -/
theorem State.stall_eq (s : State) (w : Wait) (h : (∀ pa, w ≠ .send pa) ∧ ∀ k g b, w ≠ .post k g b) :
    s.stall w = s.pause (s.task.wait.begin s.clk w) := by
  cases w
  case send pa => exact absurd rfl (h.1 pa)
  case post k g b => exact absurd rfl (h.2 k g b)
  all_goals rfl

theorem need_ok {c : Bool} {e : Stop} : need c e = .ok () ↔ c = true := by
  cases c <;> simp [need]
theorem need_error {c : Bool} {e f : Stop} : need c e = .error f ↔ c = false ∧ e = f := by
  cases c <;> simp [need]
theorem State.needSup_ok {s : State} : s.needSup = .ok () ↔ s.task.sup = true := by
  unfold State.needSup
  cases s.task.sup <;> simp
theorem State.needSup_error {s : State} {e : Stop} : s.needSup = .error e ↔ s.task.sup = false ∧ e = Stop.privilege := by
  unfold State.needSup
  cases s.task.sup <;> simp [eq_comm]

/-! ### Acquires (R147) -/

/-- An acquire touches the generation of one core, and its lines where the generation wraps. -/
theorem State.acquireAt_cases (s : State) (core : Nat) (sc : Scope) :
    (sc = .c ∧ s.acquireAt core sc = s) ∨
    (sc ≠ .c ∧ ∃ l, s.acquireAt core sc = s.setCore core { s.core core with sgen := (s.core core).sgen + 1, lines := l } ∧
      l = if (s.core core).sgen + 1 = 0 then (s.core core).lines.filter (fun e => !e.2.sinv) else (s.core core).lines) := by
  unfold State.acquireAt
  split
  · next h => exact .inl ⟨h, rfl⟩
  · next h => exact .inr ⟨h, _, rfl, rfl⟩

theorem State.acquireAt_cores_wf {s : State} (h : smapWf {} s.cores = true) (core : Nat) (sc : Scope) :
    smapWf {} (s.acquireAt core sc).cores = true := by
  unfold State.acquireAt
  split
  · exact h
  · exact smapSet_wf h _ _

theorem State.acquire_eq (s : State) (o : Ops) : ∃ cs, s.acquire o = { s with cores := cs } := by
  unfold State.acquire
  split
  · obtain ⟨-, h⟩ | ⟨-, l, h, -⟩ := State.acquireAt_cases s s.task.core o.x.sc
    · exact ⟨s.cores, h⟩
    · exact ⟨_, h⟩
  · exact ⟨s.cores, rfl⟩

end Sys2Proof.Machine
end

