-- ==== Sys2Proof/Laws/Lines.lean ====
section
/-! SUPPORT. What the operations over copies of lines can do: they move copies, and touch nothing but the cores and the states of the
dies. -/

namespace Sys2Proof.Machine

open Sys2Proof

/-- Only copies of lines have moved: the cores, the directories, and the states of the dies at the L2 and the L3. -/
def OnlyLines (s u : State) : Prop := u = { s with cores := u.cores, dir := u.dir, l2dirty := u.l2dirty, l3 := u.l3 }

theorem OnlyLines.refl (s : State) : OnlyLines s s := rfl
theorem OnlyLines.trans {s t u : State} (h : OnlyLines s t) (k : OnlyLines t u) : OnlyLines s u := by
  unfold OnlyLines at *
  rw [k, h]
theorem OnlyLines.mem {s u : State} (h : OnlyLines s u) : u.mem = s.mem := by rw [h]
theorem OnlyLines.scratch {s u : State} (h : OnlyLines s u) : u.scratch = s.scratch := by rw [h]
theorem OnlyLines.task {s u : State} (h : OnlyLines s u) : u.task = s.task := by rw [h]
theorem OnlyLines.others {s u : State} (h : OnlyLines s u) : u.others = s.others := by rw [h]
theorem OnlyLines.ite {s t u : State} {c : Prop} [Decidable c] (h : OnlyLines s t) (k : OnlyLines s u) : OnlyLines s (if c then t else u) := by
  split
  · exact h
  · exact k
/-- Copies that move one after the other. -/
theorem OnlyLines.foldl {α : Type} {f : State → α → State} (h : ∀ s x, OnlyLines s (f s x)) (l : List α) (s : State) :
    OnlyLines s (l.foldl f s) := by
  induction l generalizing s with
  | nil => exact .refl s
  | cons x l ih => exact (h s x).trans (ih _)

theorem State.setCore_onlyLines (s : State) (c : Nat) (x : Core) : OnlyLines s (s.setCore c x) := rfl
theorem State.setLine_onlyLines (s : State) (c l : Nat) (x : Line) : OnlyLines s (s.setLine c l x) := rfl
theorem State.setDir_onlyLines (s : State) (d l : Nat) (x : DirEntry) : OnlyLines s (s.setDir d l x) := rfl
theorem State.setL2Dirty_onlyLines (s : State) (d l : Nat) (x : Bool) : OnlyLines s (s.setL2Dirty d l x) := rfl
theorem State.setL3_onlyLines (s : State) (l y : Nat) (x : L3State) : OnlyLines s (s.setL3 l y x) := rfl

theorem State.invalidate_onlyLines (s : State) (c l : Nat) : OnlyLines s (s.invalidate c l) := by
  unfold State.invalidate
  exact .ite (s.setCore_onlyLines _ _) (.ite (s.setLine_onlyLines _ _ _) (.refl s))
theorem State.share_onlyLines (s : State) (c l : Nat) : OnlyLines s (s.share c l) := by
  unfold State.share
  exact .ite (.ite ((s.setLine_onlyLines _ _ _).trans (State.setL2Dirty_onlyLines _ _ _ _)) (s.setLine_onlyLines _ _ _)) (.refl s)
theorem State.disown_onlyLines (s : State) (c l : Nat) : OnlyLines s (s.disown c l) := by
  unfold State.disown
  exact .ite ((s.share_onlyLines c l).trans (State.setDir_onlyLines _ _ _ _)) (s.share_onlyLines c l)
theorem State.giveUp_onlyLines (s : State) (c l : Nat) : OnlyLines s (s.giveUp c l) := by
  unfold State.giveUp
  have h : ∀ s : State, ∀ d k, OnlyLines s (if s.dirEntry d l = .own k then s.setDir d l .inv else s) :=
    fun s d k => .ite (s.setDir_onlyLines _ _ _) (.refl s)
  exact (((OnlyLines.ite (s.setL2Dirty_onlyLines _ _ _) (.refl s)).trans (h _ _ _))).trans (State.setLine_onlyLines _ _ _ _)
theorem State.dropDie_onlyLines (s : State) (l d : Nat) : OnlyLines s (s.dropDie l d) := by
  unfold State.dropDie
  exact ((OnlyLines.foldl (fun s k => s.invalidate_onlyLines _ l) _ s).trans (State.setDir_onlyLines _ _ _ _)).trans
    (State.setL2Dirty_onlyLines _ _ _ _)
theorem State.keepShared_onlyLines (s : State) (l y : Nat) (v : L3State) : OnlyLines s (s.keepShared l y v) := by
  unfold State.keepShared
  simp only
  split
  · exact ((s.share_onlyLines _ l).trans (State.setDir_onlyLines _ _ _ _)).trans (State.setL3_onlyLines _ _ _ _)
  · exact s.setL3_onlyLines _ _ _
theorem State.supply_onlyLines (s : State) (l y : Nat) : OnlyLines s (s.supply l y) := by
  unfold State.supply
  split
  · exact s.keepShared_onlyLines _ _ _
  · exact s.keepShared_onlyLines _ _ _
  · exact .refl s
theorem State.l3Read_onlyLines (s : State) (l x : Nat) : OnlyLines s (s.l3Read l x) := by
  unfold State.l3Read
  exact .ite (.refl s) ((OnlyLines.foldl (fun s y => .ite (.refl s) (s.supply_onlyLines l y)) _ s).trans (State.setL3_onlyLines _ _ _ _))
theorem State.l3Own_onlyLines (s : State) (l x : Nat) : OnlyLines s (s.l3Own l x) := by
  unfold State.l3Own
  have h (s : State) (y : Nat) : OnlyLines s (if y = x ∨ s.l3State l y = .I then s else (s.dropDie l y).setL3 l y .I) :=
    .ite (.refl s) ((s.dropDie_onlyLines l y).trans (State.setL3_onlyLines _ _ _ _))
  have k (s : State) (b : Bool) : OnlyLines s (if b then s.setL2Dirty x l true else s) := .ite (s.setL2Dirty_onlyLines _ _ _) (.refl s)
  exact ((OnlyLines.foldl h _ s).trans (k _ _)).trans (State.setL3_onlyLines _ _ _ _)
theorem State.ownThrough_onlyLines (s : State) (d l : Nat) : OnlyLines s (s.ownThrough d l) :=
  (s.l3Own_onlyLines l d).trans (State.setL2Dirty_onlyLines _ _ _ _)
theorem State.l3Back_onlyLines (s : State) (l x : Nat) : OnlyLines s (s.l3Back l x) := by
  unfold State.l3Back
  exact .ite (.refl s) ((s.dropDie_onlyLines l x).trans (State.setL3_onlyLines _ _ _ _))
theorem State.backInvalidate_onlyLines (s : State) (l : Nat) : OnlyLines s (s.backInvalidate l) :=
  OnlyLines.foldl (fun s y => .ite (.refl s) ((s.dropDie_onlyLines l y).trans (State.setL3_onlyLines _ _ _ _))) _ s
theorem State.dropCopies_onlyLines (s : State) (l : Nat) (w : Nat → Bool) : OnlyLines s (s.dropCopies l w) :=
  OnlyLines.foldl (fun s _ => .ite (s.invalidate_onlyLines _ l) (.refl s)) _ s
theorem State.collect_onlyLines (s : State) (l d : Nat) : OnlyLines s (s.collect l d) :=
  ((s.dropCopies_onlyLines l _).trans (State.setDir_onlyLines _ _ _ _)).trans (State.setL2Dirty_onlyLines _ _ _ _)
/-- Taking a halter moves copies of its line (R213). -/
theorem State.halterCopies_onlyLines (s : State) (store : Bool) (level : HalterLevel) (d l : Nat) :
    OnlyLines s (s.halterCopies store level d l) := by
  unfold State.halterCopies
  split
  · exact .refl s
  · exact (s.l3Own_onlyLines l d).trans (State.collect_onlyLines _ _ _)
  · exact (s.backInvalidate_onlyLines l).trans (State.dropCopies_onlyLines _ _ _)
  · simp only
    split
    · exact ((s.l3Read_onlyLines l d).trans (State.share_onlyLines _ _ _)).trans (State.setDir_onlyLines _ _ _ _)
    · exact s.l3Read_onlyLines l d
  · exact OnlyLines.foldl (fun s y => s.supply_onlyLines l y) _ s

end Sys2Proof.Machine
end

