-- ==== Sys2Proof/Laws/Access.lean ====
section
/-! SUPPORT. What a checked access, a load and a store can do, and that every operation over DRAM and scratch keeps the canonical
form. -/

namespace Sys2Proof.Machine

open Sys2Proof

/-! ### Checks (R92, R388) -/

theorem State.access_ok {s : State} {n : Want} {va : Word} {l : Loc} :
    s.access n va = .ok l ↔ s.check s.task.who n va = .ok l ∧ s.needsX l = false := by
  unfold State.access
  cases s.check s.task.who n va with
  | ok m =>
    cases hx : s.needsX m <;> simp only [hx, if_true, if_false, Bool.false_eq_true, Except.ok.injEq, reduceCtorEq, false_iff]
    · exact ⟨fun h => ⟨h, h ▸ hx⟩, fun h => h.1⟩
    · rintro ⟨rfl, h⟩
      exact absurd (hx.symm.trans h) (by decide)
  | error b => simp

/-- An access that fails, or that waits for the walker to set a code bit (R327). -/
theorem State.access_error {s : State} {n : Want} {va : Word} {e : Stop} :
    s.access n va = .error e ↔ (∃ b, s.check s.task.who n va = .error b ∧ e = b.stop va (if n.w then 2 else 1)) ∨
      ∃ l, s.check s.task.who n va = .ok l ∧ s.needsX l = true ∧ e = .wait (.walk va) := by
  unfold State.access
  cases s.check s.task.who n va with
  | ok m =>
    cases hx : s.needsX m
    · simp [hx]
    · simp [hx, @eq_comm _ e]
  | error b => simp [@eq_comm _ e]

/-- A frame check never answers with scratch. -/
theorem State.checkFrame_phys {s : State} {w : Who} {n : Want} {va : Word} {pa : Nat} {e : Word} {l : Loc}
    (h : s.checkFrame w n va pa e = .ok l) : l = .phys pa e := by
  unfold State.checkFrame at h
  simp only at h
  repeat' split at h
  all_goals cases h <;> rfl

/-- A checked access inside the scratch window goes to the core's scratch. -/
theorem State.check_scratch {s : State} {w : Who} {n : Want} {va : Word} {k : Nat} (h : s.check w n va = .ok (.scratch k)) :
    scratchBase ≤ va.toNat ∧ va.toNat - scratchBase < (s.core w.core).scratchBytes ∧ scratchPermitted n = true ∧
      k = 262144 * w.core + (va.toNat - scratchBase) := by
  unfold State.check at h
  split at h
  · cases h
  · split at h
    · split at h
      · cases h
      · split at h
        · exact ⟨by assumption, by omega, by assumption, (Loc.scratch.inj (Except.ok.inj h)).symm⟩
        · cases h
    · split at h
      · split at h <;> cases h
      · cases h
      · cases h
      · cases h
      · cases h
      · split at h
        · cases h
        · simp only at h
          split at h
          · split at h
            · cases h
            · exact absurd (State.checkFrame_phys h) (by simp)
          · exact absurd (State.checkFrame_phys h) (by simp)

/-! ### Loads and stores -/

theorem State.notHaltered_ok {s : State} {l : Loc} (h : s.notHaltered l = .ok ()) :
    ∀ pa leaf, l = .phys pa leaf → s.haltered s.task.tid (lineOf pa) = false := by
  rintro pa leaf rfl
  simp only [State.notHaltered] at h
  split at h
  · cases h
  · next hn => exact Bool.eq_false_iff.mpr hn

/-- The location of a plain load that answers: aligned, checked, and under no other task's halter. -/
theorem State.loadLoc_ok {s : State} {n : Want} {va : Word} {align : Nat} {l : Loc} (h : s.loadLoc n va align = .ok l) :
    va.toNat % align = 0 ∧ s.check s.task.who { n with r := true } va = .ok l ∧ s.needsX l = false ∧ s.notHaltered l = .ok () := by
  simp only [State.loadLoc, bind, Except.bind] at h
  split at h
  · cases h
  · next ha =>
    split at h
    · cases h
    · next l' hl =>
      split at h
      · cases h
      · next hh =>
        cases h
        exact ⟨by simpa using need_ok.mp ha, (State.access_ok.mp hl).1, (State.access_ok.mp hl).2, hh⟩

/-- The location of a plain store that answers. -/
theorem State.storeAt_ok {s : State} {n : Want} {va : Word} {bytes : Nat} {l : Loc} (h : s.storeAt n va bytes = .ok l) :
    va.toNat % bytes = 0 ∧ s.check s.task.who { n with w := true } va = .ok l ∧ s.needsX l = false ∧ s.notHaltered l = .ok () := by
  simp only [State.storeAt, bind, Except.bind] at h
  split at h
  · cases h
  · next ha =>
    split at h
    · cases h
    · next l' hl =>
      split at h
      · cases h
      · next hh =>
        cases h
        exact ⟨by simpa using need_ok.mp ha, (State.access_ok.mp hl).1, (State.access_ok.mp hl).2, hh⟩

/-- A load of an operand record that answers read bytes without an uncorrectable error. -/
theorem State.load_ok {s : State} {n : Want} {va : Word} {bytes align v : Nat} (h : s.load n va bytes align = .ok v) :
    ∃ l, s.loadLoc n va align = .ok l ∧ s.locPoisoned l bytes = false ∧ v = s.readLoc l bytes := by
  simp only [State.load, bind, Except.bind] at h
  split at h
  · cases h
  · next l hl =>
    split at h
    · cases h
    · next hp => cases h; exact ⟨l, hl, by simpa using need_ok.mp hp, rfl⟩

/-- A write of DRAM changes the bytes and the monitors of tasks (R255, R269). -/
theorem State.poke_mem (s : State) (pa n v : Nat) : (s.poke pa n v).mem = s.mem.write pa n v := rfl

/-- A monitor that fires leaves everything of a task but what it waits for. -/
theorem Task.fire_eq (t : Task) (lo hi : Nat) : ∃ w, t.fire lo hi = { t with wait := w } := by
  unfold Task.fire
  repeat' split
  all_goals exact ⟨_, rfl⟩

/-- A mark changes the list of marks (R328). -/
theorem State.mark_eq {s u : State} {tid : Tid} {die line : Nat} (h : s.mark tid die line = some u) :
    ∃ m, u = { s with marks := m } := by
  unfold State.mark at h
  simp only at h
  repeat' split at h
  all_goals cases h
  all_goals exact ⟨_, rfl⟩

theorem State.marks_foldlM {tid : Tid} {die : Nat} {f : Nat → Nat} (l : List Nat) {s u : State}
    (h : l.foldlM (fun s i => s.mark tid die (f i)) s = some u) : ∃ m, u = { s with marks := m } := by
  induction l generalizing s with
  | nil => cases h; exact ⟨_, rfl⟩
  | cons i l ih =>
    simp only [List.foldlM_cons, Option.bind_eq_bind, Option.bind_eq_some_iff] at h
    obtain ⟨s1, h1, h2⟩ := h
    obtain ⟨m, rfl⟩ := State.mark_eq h1
    obtain ⟨m', rfl⟩ := ih h2
    exact ⟨m', rfl⟩

/-- Marking the lines of a code store changes the list of marks. -/
theorem State.markRange_eq {s u : State} {tid : Tid} {die pa n : Nat} (h : s.markRange tid die pa n = some u) :
    ∃ m, u = { s with marks := m } := by
  unfold State.markRange at h
  split at h
  · exact State.marks_foldlM _ h
  · cases h; exact ⟨s.marks, rfl⟩

/-- The write-through of a store to a SINV page moves copies of its lines (R146). -/
theorem State.writeThrough_onlyLines (s : State) (die pa n : Nat) (e : Word) : OnlyLines s (s.writeThrough die pa n e) := by
  unfold State.writeThrough
  exact .ite (OnlyLines.foldl (fun s i => s.ownThrough_onlyLines die _) _ s) (.refl s)

/-- The guard changes streams of the executing task. -/
theorem State.guardAll_memory (s : State) (va n : Nat) (l : Loc) :
    (s.guardAll va n l).mem = s.mem ∧ (s.guardAll va n l).scratch = s.scratch := ⟨rfl, rfl⟩
/-- What copy units still see of the words stored to is no byte of memory (R166). -/
theorem State.keepOld_memory (s : State) (whole : Bool) (ls : List (Loc × Nat)) :
    (s.keepOld whole ls).mem = s.mem ∧ (s.keepOld whole ls).scratch = s.scratch := ⟨rfl, rfl⟩

/-- The memory after a store: the bytes of its location written in DRAM or in scratch. -/
theorem State.storeBytes_memory {s u : State} {va : Word} {l : Loc} {n v : Nat} (h : s.storeBytes va l n v = .ok u) :
    (∃ k, l = .scratch k ∧ u.mem = s.mem ∧ u.scratch = s.scratch.write k n v) ∨
    (∃ pa leaf, l = .phys pa leaf ∧ u.mem = s.mem.write pa n v ∧ u.scratch = s.scratch) := by
  unfold State.storeBytes at h
  split at h
  · cases h; exact .inl ⟨_, rfl, rfl, rfl⟩
  · next pa e =>
    split at h
    · cases h
    · next hm =>
      cases h
      obtain ⟨m, rfl⟩ := State.markRange_eq hm
      have h := State.writeThrough_onlyLines { s with marks := m } s.task.die pa n e
      exact .inr ⟨pa, e, rfl, congrArg (Memory.write · pa n v) h.mem, h.scratch⟩
theorem State.storeLoc_memory {s u : State} {va : Word} {l : Loc} {n v : Nat} (h : s.storeLoc va l n v = .ok u) :
    (∃ k, l = .scratch k ∧ u.mem = s.mem ∧ u.scratch = s.scratch.write k n v) ∨
    (∃ pa leaf, l = .phys pa leaf ∧ u.mem = s.mem.write pa n v ∧ u.scratch = s.scratch) :=
  State.storeBytes_memory (s := s.keepOld false [(l, n)]) h

/-- The bytes after a store: those of the location the value's, little-endian; every other byte as before. -/
theorem State.storeLoc_bytes {s u : State} (hm : s.mem.wf) (hs : s.scratch.wf) {va : Word} {l : Loc} {n v : Nat}
    (h : s.storeLoc va l n v = .ok u) :
    (∀ a, u.mem.byte a = match l with
      | .phys pa _ => if pa ≤ a ∧ a < pa + n then BitVec.ofNat 8 (v / 256 ^ (a - pa)) else s.mem.byte a
      | .scratch _ => s.mem.byte a) ∧
    (∀ a, u.scratch.byte a = match l with
      | .scratch k => if k ≤ a ∧ a < k + n then BitVec.ofNat 8 (v / 256 ^ (a - k)) else s.scratch.byte a
      | .phys _ _ => s.scratch.byte a) := by
  obtain ⟨k, rfl, h1, h2⟩ | ⟨pa, leaf, rfl, h1, h2⟩ := State.storeLoc_memory h <;> rw [h1, h2]
  · exact ⟨fun _ => rfl, fun a => byte_write hs k n v a⟩
  · exact ⟨fun a => byte_write hm pa n v a, fun _ => rfl⟩

/-- A store keeps DRAM and scratch in canonical form. -/
theorem State.storeLoc_wf {s u : State} (hm : s.mem.wf) (hs : s.scratch.wf) {va : Word} {l : Loc} {n v : Nat}
    (h : s.storeLoc va l n v = .ok u) : u.mem.wf ∧ u.scratch.wf := by
  obtain ⟨k, rfl, h1, h2⟩ | ⟨pa, leaf, rfl, h1, h2⟩ := State.storeLoc_memory h <;> rw [h1, h2]
  · exact ⟨hm, write_wf hs k n v⟩
  · exact ⟨write_wf hm pa n v, hs⟩

/-! ### The other operations over DRAM and scratch -/

theorem zeroStack_wf {s : State} (h : s.mem.wf) (k : Nat) : (s.zeroStack k).mem.wf := smapFilter_wf _ h
theorem scratchOutside_wf {m : Memory} (h : m.wf) (i : Nat) : (scratchOutside i m).wf := smapFilter_wf _ h
theorem zeroSegments_wf {m : Memory} (h : m.wf) (core : Nat) (old new : Word) : (zeroSegments core old new m).wf := smapFilter_wf _ h
theorem image_wf {m : Memory} (h : m.wf) (l : List (Nat × Byte)) : Memory.wf (l.foldl (fun m e => m.setByte e.1 e.2) m) := by
  induction l generalizing m with
  | nil => exact h
  | cons e l ih => exact ih (setByte_wf h e.1 e.2)
theorem placeTables_wf {m : Memory} (h : m.wf) : (placeTables m).wf :=
  write_wf (write_wf (write_wf (write_wf h _ _ _) _ _ _) _ _ _) _ _ _
theorem reset_mem_wf : State.reset.mem.wf := rfl

end Sys2Proof.Machine
end

