-- ==== Sys2Proof/Laws/Step.lean ====
section
/-! SUPPORT. What one step can do. -/

namespace Sys2Proof.Machine

open Sys2Proof

/-- A step: an instruction of the executing task, the end of the grants, an event of the agenda, an instruction of the task whose slot
comes next on the executing task's core, or the package's own work. -/
theorem step_cases (s : State) :
    (∃ n, s.grant = n + 1 ∧ s.tick.canIssue = true ∧ step s = issueTask { s.tick with grant := n }) ∨
    (∃ n, s.grant = n + 1 ∧ s.tick.canIssue = false ∧ step s = .next { s.tick with grant := 0 }) ∨
    (∃ e rest, s.grant = 0 ∧ s.agenda = e :: rest ∧ step s = exec e { s.tick with agenda := rest }) ∨
    (s.grant = 0 ∧ s.agenda = [] ∧ s.tick.canIssue = true ∧ step s = issueTask s.tick.rotate) ∨
    (s.grant = 0 ∧ s.agenda = [] ∧ s.tick.canIssue = false ∧ step s = .next s.tick.idle) := by
  have hg : s.tick.grant = s.grant := rfl
  have ha : s.tick.agenda = s.agenda := rfl
  cases g : s.grant with
  | succ n =>
    cases c : s.tick.canIssue
    · exact .inr (.inl ⟨n, rfl, rfl, by simp [step, hg, g, c]⟩)
    · exact .inl ⟨n, rfl, rfl, by simp [step, hg, g, c]⟩
  | zero =>
    cases a : s.agenda with
    | cons e rest => exact .inr (.inr (.inl ⟨e, rest, rfl, rfl, by simp [step, hg, ha, g, a]⟩))
    | nil =>
      cases c : s.tick.canIssue
      · exact .inr (.inr (.inr (.inr ⟨rfl, rfl, rfl, by simp [step, hg, ha, g, a, c]⟩)))
      · exact .inr (.inr (.inr (.inl ⟨rfl, rfl, rfl, by simp [step, hg, ha, g, a, c]⟩)))

/-- A task with nothing standing at its boundary issues. -/
theorem issueTask_issues {s : State} (hp : s.task.sending = none) (hd : s.task.dataErr = none) (h : s.stopNow s.task = none) :
    issueTask s = issueWord (s.setTask { s.task with peerSent := none }) := by
  simp [issueTask, hp, hd, h]
/-- A word that a peer has still to accept keeps the task at its instruction (R261). -/
theorem issueTask_peer {s : State} {p : PeerSend} (hs : s.task.sending = some p) (hp : s.peerWaits s.task = true) :
    issueTask s = .next (s.stall (.peer p.key p.seq)) := by
  simp [issueTask, hs, hp]
/-- A word that the peer has accepted completes its instruction (R261). -/
theorem issueTask_sent {s : State} {p : PeerSend} (hs : s.task.sending = some p) (hp : s.peerWaits s.task = false) :
    issueTask s = .next (s.setTask s.task.sent) := by
  simp [issueTask, hs, hp]
/-- A data error is taken at the boundary, before a stop (R240). -/
theorem issueTask_data {s : State} {va pc : Word} {pa : Nat} (hp : s.task.sending = none) (hd : s.task.dataErr = some (va, pc, pa)) :
    issueTask s = .next (s.takeDataError pc pa) := by
  simp [issueTask, hp, hd]
/-- A stop that is due is taken at the boundary (R369). -/
theorem issueTask_stop {s : State} {n : Nat} (hp : s.task.sending = none) (hd : s.task.dataErr = none)
    (h : s.stopNow s.task = some n) : issueTask s = .next (s.debugStop s.task.tid n) := by
  simp [issueTask, hp, hd, h]

/-- An instruction whose bytes are read runs as exec runs what its bytes decode to. -/
theorem issueWord_decoded {s s1 : State} {ws : List (BitVec 32)} {i : Instr} (hf : s.fetch = .ok (s1, ws)) (hd : decode ws = .ok i) :
    issueWord s = afterIssue s1 i (exec i s1) := by
  simp [issueWord, hf, hd]
/-- Bytes that decode to nothing are an illegal instruction. -/
theorem issueWord_illegal {s s1 : State} {ws : List (BitVec 32)} {c : Illegal} (hf : s.fetch = .ok (s1, ws)) (hd : decode ws = .error c) :
    issueWord s = afterIssue s1 (.illegalInstruction c.code (ws.headD 0)) (exec (.illegalInstruction c.code (ws.headD 0)) s1) := by
  simp [issueWord, hf, hd]
/-- A fetch that is not allowed ends as its stop says. -/
theorem issueWord_noFetch {s : State} {e : Stop} (hf : s.fetch = .error e) :
    issueWord s = .next (s.finish .instructionFetch (.error e)) := by
  simp [issueWord, hf]

/-- Time moves on with every step and touches nothing else. -/
@[simp] theorem State.tick_mem (s : State) : s.tick.mem = s.mem := rfl
@[simp] theorem State.tick_task (s : State) : s.tick.task = s.task := rfl
@[simp] theorem State.tick_others (s : State) : s.tick.others = s.others := rfl
@[simp] theorem State.tick_paddocks (s : State) : s.tick.paddocks = s.paddocks := rfl
@[simp] theorem State.tick_cores (s : State) : s.tick.cores = s.cores := rfl
@[simp] theorem State.tick_clusters (s : State) : s.tick.clusters = s.clusters := rfl
@[simp] theorem State.tick_free (s : State) : s.tick.free = s.free + 1 := rfl

end Sys2Proof.Machine
end

