-- ==== Sys2Proof/Tests/Slice0.lean ====
section
/-! SUPPORT. Tests: words of the spec's encoding tables and of its worked examples decode to the instructions they stand for, each
check of well-formedness refuses an ill-formed term, and for every statement a concrete state and operands that meet its
hypotheses. -/

namespace Sys2Proof.Tests

open Sys2Proof Sys2Proof.Machine Sys2Proof.Claims

set_option Elab.async false

/-- Words that decode to an instruction. -/
def decodesTo (ws : List (BitVec 32)) (i : Instr) : Bool := match decode ws with | .ok j => decide (j = i) | .error _ => false
/-- Words that decode to no instruction, with the cause of R60. -/
def refused (ws : List (BitVec 32)) (c : BitVec 8) : Bool := match decode ws with | .ok _ => false | .error e => e.code == c

/-! ### Decoding: first words of the opcode table with d 2, a 1, b 3, predicate 1 and immediate 5 in their places -/

theorem test_decode_table_1 : ∀ p ∈ ([
    (0x00000004, .nop {}), (0x00184408, .add { b := 3, a := 1, d := 2 }), (0x0018440C, .sub { b := 3, a := 1, d := 2 }),
    (0x00184410, .mul { b := 3, a := 1, d := 2 }), (0x08184410, .mulh { b := 3, a := 1, d := 2 }),
    (0x00184414, .div { b := 3, a := 1, d := 2 }), (0x08184414, .rem { b := 3, a := 1, d := 2 }),
    (0x00184418, .and { b := 3, a := 1, d := 2 }), (0x08184418, .or { b := 3, a := 1, d := 2 }),
    (0x10184418, .xor { b := 3, a := 1, d := 2 }), (0x18184418, .andn { b := 3, a := 1, d := 2 }),
    (0x20184418, .orn { b := 3, a := 1, d := 2 }), (0x28184418, .xnor { b := 3, a := 1, d := 2 }),
    (0x0018441C, .shl { b := 3, a := 1, d := 2 }), (0x0818441C, .shr { b := 3, a := 1, d := 2 }),
    (0x1018441C, .sar { b := 3, a := 1, d := 2 }), (0x1818441C, .rol { b := 3, a := 1, d := 2 }),
    (0x2018441C, .ror { b := 3, a := 1, d := 2 }), (0x00184420, .min { b := 3, a := 1, d := 2 }),
    (0x08184420, .max { b := 3, a := 1, d := 2 }), (0x00184424, .cmp .eq { b := 3, a := 1, d := 2 }),
    (0x0028442C, .addi { imm := 5, a := 1, d := 2 }), (0x00284430, .andi { imm := 5, a := 1, d := 2 }),
    (0x08284430, .ori { imm := 5, a := 1, d := 2 }), (0x10284430, .xori { imm := 5, a := 1, d := 2 }),
    (0x00284434, .shli { imm := 5, a := 1, d := 2 }), (0x08284434, .shri { imm := 5, a := 1, d := 2 }),
    (0x10284434, .sari { imm := 5, a := 1, d := 2 }), (0x18284434, .roli { imm := 5, a := 1, d := 2 }),
    (0x20284434, .rori { imm := 5, a := 1, d := 2 }), (0x00280438, .li { imm := 5, d := 2 }),
    (0x00284640, .beq { imm := 5, a := 1, b := 3 }), (0x00284644, .bne { imm := 5, a := 1, b := 3 }),
    (0x00284648, .blt { imm := 5, a := 1, b := 3 }), (0x0028464C, .bge { imm := 5, a := 1, b := 3 }),
    (0x00284650, .blo { imm := 5, a := 1, b := 3 }), (0x00284654, .bhs { imm := 5, a := 1, b := 3 }),
    (0x00014458, .jal { imm := 5, d := 2 }), (0x0028445C, .jalr { imm := 5, a := 1, d := 2 }),
    (0x00014460, .addpc { imm := 5, d := 2 })] : List (BitVec 32 × Instr)), decodesTo [p.1] p.2 = true := by decide +kernel
theorem test_decode_table_2 : ∀ p ∈ ([
    (0x01504480, .ld { imm := 5, m := 2, a := 1, d := 2 }), (0x01504484, .st { imm := 5, m := 2, a := 1, d := 2 }),
    (0x03184488, .amo .swap { m := 3, b := 3, a := 1, d := 2 }), (0x00184490, .famo { b := 3, a := 1, d := 2 }),
    (0x00000094, .fence {}), (0x08000094, .pubc {}), (0x011844C0, .vld { m := 1, b := 3, a := 1, d := 2 }),
    (0x011844C4, .vst { m := 1, b := 3, a := 1, d := 2 }), (0x011844C8, .vadd { m := 1, b := 3, a := 1, d := 2 }),
    (0x091844C8, .vsub { m := 1, b := 3, a := 1, d := 2 }), (0x111844C8, .vmul { m := 1, b := 3, a := 1, d := 2 }),
    (0x191844C8, .vmulh { m := 1, b := 3, a := 1, d := 2 }), (0x211844C8, .vdiv { m := 1, b := 3, a := 1, d := 2 }),
    (0x291844C8, .vmin { m := 1, b := 3, a := 1, d := 2 }), (0x311844C8, .vmax { m := 1, b := 3, a := 1, d := 2 }),
    (0x390044C8, .vabs { m := 1, a := 1, d := 2 }), (0x410044C8, .vneg { m := 1, a := 1, d := 2 }),
    (0x491844C8, .vand { m := 1, b := 3, a := 1, d := 2 }), (0x511844C8, .vor { m := 1, b := 3, a := 1, d := 2 }),
    (0x591844C8, .vxor { m := 1, b := 3, a := 1, d := 2 }), (0x611844C8, .vandn { m := 1, b := 3, a := 1, d := 2 }),
    (0x011844D0, .vshl { m := 1, b := 3, a := 1, d := 2 }), (0x091844D0, .vshr { m := 1, b := 3, a := 1, d := 2 }),
    (0x111844D0, .vsar { m := 1, b := 3, a := 1, d := 2 }), (0x191844D0, .vrol { m := 1, b := 3, a := 1, d := 2 }),
    (0x211844D0, .vror { m := 1, b := 3, a := 1, d := 2 }), (0x011844D4, .vcmp .eq { m := 1, b := 3, a := 1, d := 2 }),
    (0x011844D8, .vsel { m := 1, b := 3, a := 1, d := 2 }), (0x011844E0, .vdot { m := 1, b := 3, a := 1, d := 2 }),
    (0x010044E4, .vred .add { m := 1, a := 1, d := 2 }), (0x011844E8, .vpermTbl { m := 1, b := 3, a := 1, d := 2 }),
    (0x091844E8, .vpermBcast { m := 1, b := 3, a := 1, d := 2 }), (0x110044E8, .vpermRev { m := 1, a := 1, d := 2 }),
    (0x010044EC, .vsf .rcp { m := 1, a := 1, d := 2 }), (0x011844F0, .vtopk { m := 1, b := 3, a := 1, d := 2 }),
    (0x001044F4, .pset { b := 2, a := 1, d := 2 }), (0x080044F4, .pcnt { a := 1, d := 2 }), (0x100044F4, .prd { a := 1, d := 2 }),
    (0x180044F4, .pwr { a := 1, d := 2 }), (0x200044F4, .pbrk { a := 1, d := 2 })] : List (BitVec 32 × Instr)), decodesTo [p.1] p.2 = true := by decide +kernel
theorem test_decode_table_3 : ∀ p ∈ ([
    (0x010044F8, .vmovCopy { m := 1, a := 1, d := 2 }), (0x101844F8, .vmovGet { b := 3, a := 1, d := 2 }),
    (0x181844F8, .vmovSet { b := 3, a := 1, d := 2 }), (0x00004500, .sdef { a := 1, d := 2 }), (0x00004104, .sgo { a := 1 }),
    (0x00004508, .snext { a := 1, d := 2 }), (0x09004508, .snextVector { m := 1, a := 1, d := 2 }),
    (0x0018410C, .sput { b := 3, a := 1 }), (0x0918410C, .sputVector { m := 1, b := 3, a := 1 }),
    (0x00004510, .ssink { a := 1, d := 2 }), (0x00004114, .srecall { a := 1 }), (0x00004118, .swaitHome { a := 1 }),
    (0x08004118, .swaitEnd { a := 1 }), (0x0000451C, .sstat { a := 1, d := 2 }), (0x0800451C, .sstatClr { a := 1, d := 2 }),
    (0x00004120, .shold { a := 1 }), (0x08004120, .sholdOff { a := 1 }), (0x00004124, .sfree { a := 1 }),
    (0x00184540, .tld { b := 3, a := 1, d := 2 }), (0x00184544, .tst { b := 3, a := 1, d := 2 }), (0x00000548, .tzero { d := 2 }),
    (0x00004554, .tmov { a := 1, d := 2 }), (0x00184558, .mma { b := 3, a := 1, d := 2 }),
    (0x08184558, .mmaWbuf { b := 3, a := 1, d := 2 }), (0x0018455C, .mjob { b := 3, a := 1, d := 2 }),
    (0x00004560, .jpoll { a := 1, d := 2 }), (0x00004564, .jwait { a := 1, d := 2 }),
    (0x00184568, .wld { b := 3, a := 1, d := 2 }), (0x00004580, .spawn { a := 1, d := 2 }), (0x00000184, .exit {}),
    (0x08000184, .exitDump {}), (0x00004188, .yield { a := 1 }), (0x08004188, .yieldSwap { a := 1 }),
    (0x0000058C, .tid { d := 2 }), (0x0800058C, .tidLoc { d := 2 }), (0x00280190, .trap { imm := 5 }), (0x00000194, .eret {}),
    (0x00800598, .csrr { imm := 16, d := 2 }), (0x0080419C, .csrw { imm := 16, a := 1 }),
    (0x001845A0, .wfe { b := 3, a := 1, d := 2 })] : List (BitVec 32 × Instr)), decodesTo [p.1] p.2 = true := by decide +kernel
theorem test_decode_table_4 : ∀ p ∈ ([
    (0x002801A4, .bkpt { imm := 5 }), (0x001845A8, .migr { b := 3, a := 1, d := 2 }), (0x001841AC, .sendm { b := 3, a := 1 }),
    (0x001845B0, .mbind { b := 3, a := 1, d := 2 }), (0x000041B4, .mfree { a := 1 }),
    (0x001845B8, .rawaitProd { b := 3, a := 1, d := 2 }), (0x081845B8, .rawaitCons { b := 3, a := 1, d := 2 }),
    (0x001841BC, .rrelProd { b := 3, a := 1 }), (0x081841BC, .rrelCons { b := 3, a := 1 }), (0x000041C0, .cpy { a := 1 }),
    (0x000041C4, .cpym { a := 1 }), (0x000045C8, .launch { a := 1, d := 2 }), (0x080045C8, .launchDrain { a := 1, d := 2 }),
    (0x100045C8, .launchStat { a := 1, d := 2 }), (0x180045C8, .launchAbort { a := 1, d := 2 }),
    (0x001845CC, .emit { b := 3, a := 1, d := 2 }), (0x000045D0, .join { a := 1, d := 2 }),
    (0x001845D4, .leave { b := 3, a := 1, d := 2 }), (0x000045D8, .ginfoHdr { a := 1, d := 2 }),
    (0x081845D8, .ginfoMem { b := 3, a := 1, d := 2 }), (0x101845D8, .ginfoTid { b := 3, a := 1, d := 2 }),
    (0x001845DC, .cadd { b := 3, a := 1, d := 2 }), (0x081845DC, .caddSet { b := 3, a := 1, d := 2 }),
    (0x001845E0, .cwait { b := 3, a := 1, d := 2 }), (0x000045E4, .crd { a := 1, d := 2 }),
    (0x001845E8, .bexpect { b := 3, a := 1, d := 2 }), (0x081845E8, .bexpectInit { b := 3, a := 1, d := 2 }),
    (0x101845E8, .bexpectGrp { b := 3, a := 1, d := 2 }), (0x000045EC, .barrive { a := 1, d := 2 }),
    (0x001845F0, .bwait { b := 3, a := 1, d := 2 }), (0x001841F4, .tlbiVa { b := 3, a := 1 }), (0x080041F4, .tlbiAs { a := 1 }),
    (0x180001F4, .tlbiAll {}), (0x001845F8, .probeR { b := 3, a := 1, d := 2 }), (0x081845F8, .probeW { b := 3, a := 1, d := 2 }),
    (0x101845F8, .probeX { b := 3, a := 1, d := 2 }), (0x001845FC, .stkGive { b := 3, a := 1, d := 2 }),
    (0x080045FC, .stkStat { a := 1, d := 2 })] : List (BitVec 32 × Instr)), decodesTo [p.1] p.2 = true := by decide +kernel

/-- The worked examples of R53, R87, R100, R101, R120, R123, R124, R128, R135, R178, R216 to R218, R226 and R337, and the literal load,
CAS, VSTB and the other fused multiply-adds written out from R58 and their entries. -/
theorem test_decode_examples : ∀ p ∈ ([
    ([0xFFE98A2C], .addi { d := 5, a := 6, imm := 0x1FFD }), ([0x00018A2E, 0, 0x1388], .addi { len := .w3, d := 5, a := 6, lit := 0x1388 }),
    ([0x0008462D, 2], .addi { len := .w2, d := 3, a := 1, imm := 1, x := { pa := true } }), ([0x03308E80], .ld { d := 7, a := 2, m := 6, imm := 12 }),
    ([0x03308E81, 0x02000240], .ld { len := .w2, d := 7, a := 2, m := 6, imm := 12, x := { ord := .acq, sc := .d, la := 4 } }),
    ([0x023148C9, 0x0001C000], .vadd { len := .w2, d := 4, a := 5, b := 6, m := 2, x := { tag := .i32 } }),
    ([0x00188229, 0x00200000], .sel { len := .w2, d := 1, a := 2, b := 3, x := { c := 4 } }),
    ([0x0002103E, 0, 0xDEADBEEF], .lih { len := .w3, d := 8, a := 8, lit := 0xDEADBEEF }),
    ([0x0F31CA89, 0x06000220], .amo .add { len := .w2, d := 5, a := 7, b := 6, m := 7, x := { ord := .ar, sc := .d, la := 2 } }),
    ([0x0731CA8D, 0x02400100], .cas { len := .w2, d := 5, a := 7, b := 6, m := 7, x := { c := 8, ord := .acq, sc := .k } }),
    ([0x021882CD, 0x00240000], .vfma { len := .w2, d := 1, a := 2, b := 3, m := 2, x := { c := 4, tag := .fp32 } })] :
    List (List (BitVec 32) × Instr)), decodesTo p.1 p.2 = true := by decide +kernel
theorem test_decode_examples_vector : ∀ p ∈ ([
    ([0x0A1882CD, 0x00240000], .vfms { len := .w2, d := 1, a := 2, b := 3, m := 2, x := { c := 4, tag := .fp32 } }),
    ([0x121882CD, 0x00240000], .vfnma { len := .w2, d := 1, a := 2, b := 3, m := 2, x := { c := 4, tag := .fp32 } }),
    ([0x1A1882CD, 0x00240000], .vfnms { len := .w2, d := 1, a := 2, b := 3, m := 2, x := { c := 4, tag := .fp32 } }),
    ([0x001882C9, 0x10014000], .vadd { len := .w2, d := 1, a := 2, b := 3, x := { mod := 2, tag := .i16 } }),
    ([0x000110DD, 0x20040000], .vcvt { len := .w2, d := 8, a := 4, x := { mod := 4, tag := .fp32 } }),
    ([0x000106DD, 0x00048800], .vcvt { len := .w2, d := 3, a := 4, x := { tag := .bf16, rm := .rz } }),
    ([0x012868F1, 0xC8B00000], .vtopk { len := .w2, d := 20, a := 1, b := 5, m := 1, x := { mod := 25, c := 22 } }),
    ([0x080006FA, 0x00040000, 0x3FC00000], .vmovBcast { len := .w3, d := 3, x := { tag := .fp32 }, lit := 0x3FC00000 }),
    ([0x000084F9, 0x01020000], .vmovCopy { len := .w2, d := 2, a := 2, x := { ri := true, tag := .n32 } }),
    ([0x002918FD, 0x00064000], .vldb { len := .w2, d := 12, a := 4, b := 5, x := { tag := .ob4 } }),
    ([0x082918FD, 0x00064000], .vstb { len := .w2, d := 12, a := 4, b := 5, x := { tag := .ob4 } })] :
    List (List (BitVec 32) × Instr)), decodesTo p.1 p.2 = true := by decide +kernel
theorem test_decode_examples_engine : ∀ p ∈ ([
    ([0x0001C34D, 0x00048000], .tfill { len := .w2, d := 1, a := 7, x := { tag := .bf16 } }),
    ([0x00008951, 0x20048000], .tcvt { len := .w2, d := 4, a := 2, x := { mod := 4, tag := .bf16 } }),
    ([0x08404959, 0x00480000], .mmaWbuf { len := .w2, d := 4, a := 1, b := 8, x := { c := 9 } }),
    ([0x00398B5D, 0x04000100], .mjob { len := .w2, d := 5, a := 6, b := 7, x := { ord := .rel, sc := .k } }),
    ([0x09009109, 0x00040000], .snextVector { len := .w2, d := 8, a := 2, m := 1, x := { tag := .fp32 } }),
    ([0x00004509, 0x00000001], .snext { len := .w2, d := 2, a := 1, x := { pd := true } }),
    ([0x100101F5, 0x00000300], .tlbiFrm { len := .w2, a := 4, x := { sc := .p } }),
    ([0x000107D9, 0x02000200], .ginfoHdr { len := .w2, d := 3, a := 4, x := { ord := .acq, sc := .d } }),
    ([0x000101DE, 0, 0x1000], .cadd { len := .w3, a := 4, lit := 0x1000 }), ([0x00800B98], .csrr { d := 5, imm := 0x10 }),
    ([0x0081819C], .csrw { a := 6, imm := 0x10 }), ([0x00103E58], .jal { d := 31, imm := 64 })] :
    List (List (BitVec 32) × Instr)), decodesTo p.1 p.2 = true := by decide +kernel

/-- Each cause of R60: the length code, a word past the block, an unassigned opcode, a length the opcode does not have, a function code,
a register outside its file, a field that must be zero. -/
theorem test_decode_refuses : refused [0x00000007] 1 = true ∧ refused [0x00018A2E, 0] 2 = true ∧ refused [0x00000000] 3 = true ∧
    refused [0x00188228] 4 = true ∧ refused [0x08000004] 5 = true ∧ refused [0x00010124] 6 = true ∧ refused [0x00000204] 7 = true := by decide +kernel

/-! ### Well-formedness: one ill-formed term for each check -/

theorem test_wellFormed_ok : WellFormed (.add { d := 3, a := 1, b := 2 }) := by decide +kernel
theorem test_illFormed_shape : ¬ WellFormed (.add { d := 3, imm := 1 }) ∧ ¬ WellFormed (.addi { d := 3, x := { c := 1 } }) := by decide +kernel
theorem test_illFormed_cause5 : ¬ WellFormed (.st { d := 3, a := 1, m := 4 }) := by decide +kernel
theorem test_illFormed_cause6 : ¬ WellFormed (.sfree { a := 4 }) := by decide +kernel
theorem test_illFormed_cause7 : ¬ WellFormed (.add { len := .w2, d := 3, x := { la := 1 } }) := by decide +kernel

/-! ### Witnesses: for each statement with hypotheses, concrete states and operands that meet them, clause by clause -/

/-- `Canonical` by evaluation. -/
def canonicalB (s : State) : Bool :=
  [smapWf 0 s.mem, smapWf 0 s.scratch, smapWf {} s.cores, smapWf {} s.clusters, smapWf .inv s.dir, smapWf .I s.l3, smapWf false s.l2dirty,
   smapWf false s.poison, smapWf {} s.islands, smapWf 0 s.routes, smapWf {} s.peerTx, smapWf 0 s.peerRx, smapWf 0 s.routerBits,
   smapWf 0 s.admitted, smapWf false s.codeBits, smapWf {} s.tracePorts].all id &&
  s.cores.all (fun c => smapWf {} c.2.lines) &&
  s.clusters.all (fun c => smapWf {} c.2.tiles && smapWf {} c.2.jobs && smapWf {} c.2.wbuf) && s.paddocks.all (fun p => smapWf {} p.vfs)
theorem canonical_of {s : State} (h : canonicalB s = true) : Canonical s := by
  simp only [canonicalB, Bool.and_eq_true, List.all_eq_true, List.forall_mem_cons, id] at h
  obtain ⟨⟨⟨hm, hl⟩, hk⟩, hv⟩ := h
  obtain ⟨h1, h2, h3, h4, h5, h6, h7, h8, h9, h10, h11, h12, h13, h14, h15, h16, -⟩ := hm
  have lines (c : Nat) : smapWf {} (s.core c).lines = true := by
    obtain h | h : s.core c = {} ∨ (c, s.core c) ∈ s.cores := smapGet_cases _ _ _
    · rw [h]; rfl
    · exact hl _ h
  have parts (c : Nat) : (smapWf {} (s.cluster c).tiles = true ∧ smapWf {} (s.cluster c).jobs = true) ∧ smapWf {} (s.cluster c).wbuf = true := by
    obtain h | h : s.cluster c = {} ∨ (c, s.cluster c) ∈ s.clusters := smapGet_cases _ _ _
    · rw [h]; exact ⟨⟨rfl, rfl⟩, rfl⟩
    · exact hk _ h
  exact { mem := h1, scratch := h2, cores := h3, clusters := h4, dir := h5, l3 := h6, l2dirty := h7, poison := h8, islands := h9, routes := h10,
          peerTx := h11, peerRx := h12, routerBits := h13, admitted := h14, codeBits := h15, tracePorts := h16, vfs := hv,
          lines := lines, tiles := fun c => (parts c).1.1, jobs := fun c => (parts c).1.2, wbuf := fun c => (parts c).2 }
/-- An answer by evaluation. -/
def okIs {ε α : Type} [DecidableEq α] (x : Except ε α) (v : α) : Bool := match x with | .ok a => decide (a = v) | .error _ => false
theorem ok_of {ε α : Type} [DecidableEq α] {x : Except ε α} {v : α} (h : okIs x v = true) : x = .ok v := by
  cases x with
  | error e => cases h
  | ok a => rw [of_decide_eq_true h]
def errIs {ε α : Type} [DecidableEq ε] (x : Except ε α) (e : ε) : Bool := match x with | .ok _ => false | .error y => decide (y = e)
theorem err_of {ε α : Type} [DecidableEq ε] {x : Except ε α} {e : ε} (h : errIs x e = true) : x = .error e := by
  cases x with
  | ok a => cases h
  | error y => rw [of_decide_eq_true h]

theorem some_of {α : Type} {p : α → Prop} [DecidablePred p] {x : Option α} (h : x.any (fun a => decide (p a)) = true) :
    ∃ a, x = some a ∧ p a := by
  cases x with
  | none => cases h
  | some a => exact ⟨a, rfl, of_decide_eq_true h⟩
theorem okAnd_of {ε α : Type} {p : α → Prop} [DecidablePred p] {x : Except ε α}
    (h : (match x with | .ok a => decide (p a) | .error _ => false) = true) : ∃ a, x = .ok a ∧ p a := by
  cases x with
  | error e => cases h
  | ok a => exact ⟨a, rfl, of_decide_eq_true h⟩

theorem okEx_of {ε α : Type} {x : Except ε α} (h : x.isOk = true) : ∃ a, x = .ok a := by
  cases x with
  | error e => cases h
  | ok a => exact ⟨a, rfl⟩
theorem errSome_of {ε α : Type} {x : Except (Option ε) α} (h : (match x with | .error (some _) => true | _ => false) = true) :
    ∃ e, x = .error (some e) := by
  match x, h with
  | .error (some e), _ => exact ⟨e, rfl⟩

/-- A choice among some (which one is the model's free value). -/
theorem choose_isSome (s : State) {l : List Nat} (h : l ≠ []) : (s.choose l).isSome = true := by
  have := Nat.mod_lt (Config.freeChoice s.free) (List.length_pos_iff.mpr h)
  simp [State.choose, this]
theorem freeSlot_isSome {s : State} {c : Nat} (h : (s.core c).ready.isEmpty = true)
    (h2 : (List.range 4).filter (fun n => !(s.tasks.any fun t => t.inSlot && t.core == c && t.slot == n)) ≠ []) : (s.freeSlot c).isSome = true := by
  rw [State.freeSlot, if_pos h]; exact choose_isSome s h2
theorem emptySlot_isSome {s : State} {c : Nat}
    (h : (List.range 4).filter (fun n => !(s.tasks.any fun t => t.inSlot && t.core == c && t.slot == n)) ≠ []) : (s.emptySlot c).isSome = true :=
  choose_isSome s h
theorem hasRoom_of {s : State} {c : Nat} (h : (s.core c).ready.length < 8) : s.hasRoom c = true := by simp [State.hasRoom, h]

theorem find_me (s : State) : s.findTask s.task.tid = some s.task := by simp [State.findTask, State.tasks]

/-! The states that the witnesses start from: task 1 of paddock 1 on core 0, a supervisor with a trap vector; virtual pages from
0x1001000 on: readable and writable data, a counter page, read-only data, a page of demand paging, and data with TLK. -/

def wMem : Memory :=
  let m := (State.reset.place 0).mem
  ((((m.write 0x4008 8 0x6000000002000003).write 0x4010 8 0x7000000002001003).write 0x4018 8 0x2000000002002003).write 0x4020 8 8).write
    0x4028 8 0x6400000002020003
def wPad : Paddock := { cfg := { placePaddock with vfs := 5, pool := [0, 1], aspaces := [(2, 0x1001)] }, started := true, verified := true, nextTid := 2, feat := BitVec.allOnes 128, committed := true }
/-- The routers of the slices of die 0, of the edges and of clusters 0 to 2 carry tenants 0 to 7, and ports 0 and 1 admit tenant 1. -/
def w0 : State :=
  { State.reset.place 0 with mem := wMem, paddocks := [wPad], routerBits := (List.range 320 ++ (List.range 20).map (1280 + ·)).map fun r => (r, 255), admitted := [(0, 2), (1, 2)] }
/-- Registers set. -/
def reg (s : State) (l : List (Nat × Word)) : State :=
  s.setTask { s.task with g := l.foldl (fun g e => if h : e.1 < 32 then g.set e.1 e.2 else g) s.task.g }
/-- Bytes of memory set. -/
def mem (s : State) (pa n v : Nat) : State := { s with mem := s.mem.write pa n v }
/-- Memory that holds only the tables of a page of 1 GiB: virtual addresses from 0x8000000000 on, physical ones from 0 on. -/
def big (s : State) (leaf : Nat) : State := mem (mem { s with mem := [] } 0x1008 8 0x5001) 0x5000 8 leaf
/-- One page below the scratch window is mapped, at 0x2000000. -/
def top (s : State) : State :=
  mem (mem (mem (mem s 0x1FF8 8 0x5001) 0x5FF8 8 0x6001) 0x6FF8 8 0x7001) (0x7000 + 8 * 447) 8 0x6000000002000003
/-- The task's context area cannot be reached. -/
def noArea (s : State) : State := s.setTask { s.task with ctxa := 0x1000000100000 }
/-- A user task without a trap vector. -/
def user (s : State) : State := s.setTask { s.task with stat := 0, tvec := 0 }
/-- Port 1 is bound to rank 5; one word waits in it. -/
def bound (s : State) : State :=
  s.setTask { s.task with ports := s.task.ports.set 1 { pb := 0x8100000500000000, queue := [{ word := { tenant := 1, src := 7, rank := 9, port := 1, stamp := 0, value := 6 }, arrival := 0 }] } }
/-- The rank table places rank 5 on core 8, where a task holds it. -/
def ported (s : State) : State :=
  let s := bound s
  { s.setCore 0 { s.core 0 with ranks := [0x100005FFF0020] } with others := [{ tid := 0x001000000002, cstate := .running, core := 8, rank := 0x8000000000000005 }] }

/-- Tier 1 facts about the state the witnesses use. -/
theorem witness_base : Canonical w0 ∧ Canonical (ported w0) ∧ Canonical (user w0) := by
  and_intros <;> first | decide +kernel | exact canonical_of (by decide +kernel)

theorem witness_DecodeOfEncode : WellFormed (.cas { len := .w2, d := 5, a := 7, b := 6, m := 7, x := { c := 8, ord := .acq, sc := .k } }) ∧
    (Instr.row (.cas { len := .w2, d := 5, a := 7, b := 6, m := 7, x := { c := 8, ord := .acq, sc := .k } })).isSome := by decide +kernel

/-- Reset has the invariant, and the step after it answers a next state. -/
theorem witness_StepKeepsCanonicalMaps : Canonical State.reset ∧ ∃ t, step State.reset = .next t := by
  refine ⟨canonical_of (by decide +kernel), _, rfl⟩

def wAdd : State := reg (w0.withFetchWord 32 0x0018440C) [(1, 7), (3, 5)]
theorem witness_StepRunsDecodedInstruction :
    (wAdd.agenda = [] ∧ wAdd.grant = 0 ∧ wAdd.tick.canIssue = true ∧ (wAdd.tick.nextSlot 0).any (fun t => t.tid == wAdd.task.tid) = true ∧
      (let b := wAdd.tick.rotate
       b.task.sending = none ∧ b.task.dataErr = none ∧ b.stopNow b.task = none)) ∧
    ({ w0 with agenda := [.issue 0] } : State).grant = 0 ∧ ({ w0 with agenda := [.issue 0] } : State).agenda = .issue 0 :: [] ∧
    ({ wAdd with grant := 1 } : State).tick.canIssue = true ∧
    (let p : PeerSend := { pc := w0.task.pc, next := w0.task.pc + 4, key := 5, seq := 3 }
     let b : State := { w0 with peerTx := [(5, { next := 4, unacked := [(3, { tenant := 1, src := 7, rank := 5, port := 2, stamp := 0, value := 9 })] })] }
     let s := b.setTask { b.task with peerSent := some p }
     s.task.sending = some p ∧ s.peerWaits s.task = true ∧ ({ s with peerTx := [] } : State).peerWaits s.task = false) := by
  and_intros <;> decide +kernel
/-- A data error that is due at the boundary, and a stop (`witness_DebugAndTrace` has an entry that matches). -/
theorem witness_StepRuns_boundary : let s := wAdd.setTask { wAdd.task with dataErr := some (0x1001000, 5, 0x2000000) }
    s.tick.rotate.task.sending = none ∧ s.tick.rotate.task.dataErr = some (0x1001000, 5, 0x2000000) := by
  and_intros <;> decide +kernel
/-- The state whose fetch the statement speaks of, with the word `w` at its program counter. -/
def wFetch (w : Nat) : State :=
  let b := (w0.withFetchWord 32 w).tick.rotate
  b.setTask { b.task with peerSent := none }
/-- The words at the program counter decode to an instruction, or to none. -/
theorem witness_fetched (i : BitVec 32) (j : Instr) (h : (match (wFetch i.toNat).fetch with
    | .ok (_, ws) => decodesTo ws j | .error _ => false) = true) :
    ∃ s1 ws, (wFetch i.toNat).fetch = .ok (s1, ws) ∧ decode ws = .ok j := by
  split at h
  · rename_i s1 ws hf
    refine ⟨s1, ws, hf, ?_⟩
    simp only [decodesTo] at h
    split at h
    · rename_i k hk; rw [hk, of_decide_eq_true h]
    · cases h
  · cases h
theorem witness_fetched_sub : ∃ s1 ws, (wFetch (0x0018440C : BitVec 32).toNat).fetch = .ok (s1, ws) ∧
    decode ws = .ok (.sub { b := 3, a := 1, d := 2 }) := witness_fetched _ _ (by decide +kernel)
theorem witness_fetched_none : (match (wFetch 0).fetch with | .ok (_, ws) => refused ws 3 | .error _ => false) = true := by
  decide +kernel

def wAlu : State := reg w0 [(1, 0x8000000000000000), (2, 0), (3, 9)]
def oAlu : Ops := { d := 3, a := 1, b := 2 }
theorem witness_TwoSourceResults : Canonical wAlu ∧ wAlu.srcA oAlu = .ok 0x8000000000000000 ∧ wAlu.srcBL oAlu = .ok 0 ∧
    wAlu.srcBL { oAlu with len := .w3, lit := 0xFFFFFFFF } = .ok 0xFFFFFFFFFFFFFFFF ∧
    (ported w0).srcA { oAlu with len := .w2, x := { pa := true } } = .ok 6 := by
  and_intros <;> first | decide +kernel | exact canonical_of (by decide +kernel)
theorem witness_ImmediateResults : Canonical wAlu ∧ wAlu.srcA oAlu = .ok 0x8000000000000000 ∧ wAlu.srcB oAlu = .ok 0 ∧
    wAlu.srcC { oAlu with x := { c := 3 } } = .ok 9 ∧ oAlu.x.pa = false ∧ oAlu.x.pb = false ∧ oAlu.x.pc = false := by
  and_intros <;> first | decide +kernel | exact canonical_of (by decide +kernel)
theorem witness_ControlFlow : Canonical wAlu ∧ wAlu.srcA oAlu = .ok 0x8000000000000000 ∧ wAlu.srcB oAlu = .ok 0 ∧
    ((0x8000000000000000 : Word) + ({ oAlu with imm := 8 } : Ops).imm13).extractLsb' 0 2 = 0 ∧
    ((0x8000000000000000 : Word) + ({ oAlu with imm := 1 } : Ops).imm13).extractLsb' 0 2 ≠ 0 ∧
    ∃ u, (ported w0).send 1 7 = .ok u := by
  and_intros <;> first | decide +kernel | exact canonical_of (by decide +kernel) | exact ok_of (by decide +kernel) | exact okEx_of (by decide +kernel)

def wMemR : State := reg w0 [(1, 0x1001040), (2, 5), (3, 0x1001041), (4, 0x1003000), (5, 0x1004000), (6, 0x1F00000)]
def oLd : Ops := { d := 2, a := 1, m := 3, imm := 8 }
/-- A paddock that traces nothing lets every store go. -/
theorem tracedFor_off {s : State} {t : Task} {p : Paddock} (hp : s.paddock t.tenant = some p) (h : p.traceMode = 0) (l : Loc) :
    s.tracedFor t l = .ok s := by
  cases l <;> simp [State.tracedFor, State.placeAt, hp, h]
theorem traced_off {s : State} {p : Paddock} (hp : s.paddock s.task.tenant = some p) (h : p.traceMode = 0) (l : Loc) : s.traced l = .ok s :=
  tracedFor_off hp h l
theorem untraced_of {s : State} {p : Paddock} (hp : s.paddock s.task.tenant = some p) (h : p.traceMode = 0) : Untraced s := by
  intro q hq; rw [hp] at hq; cases hq; exact h
theorem witness_traced (l : Loc) : wMemR.traced l = .ok wMemR := traced_off (p := wPad) (by decide +kernel) (by decide +kernel) l
theorem witness_LoadsAndStores : Canonical wMemR ∧ wMemR.srcA oLd = .ok 0x1001040 ∧ wMemR.srcD oLd = .ok 5 ∧
    ((0x1001040 : Word) + oLd.imm10).toNat % bytesOfW oLd.m = 0 ∧
    wMemR.access { r := true, ctr := .allow } (0x1001040 + oLd.imm10) = .ok (.phys 0x2000048 0x6000000002000003) ∧
    wMemR.access { w := true } (0x1001040 + oLd.imm10) = .ok (.phys 0x2000048 0x6000000002000003) ∧
    wMemR.notHaltered (.phys 0x2000048 0x6000000002000003) = .ok () ∧ StoreFree wMemR (.phys 0x2000048 0x6000000002000003) 8 ∧
    wMemR.locPoisoned (.phys 0x2000048 0x6000000002000003) 8 = false ∧
    ({ wMemR with poison := [(0x2000048 / 64, true)] } : State).locPoisoned (.phys 0x2000048 0x6000000002000003) 8 = true := by
  and_intros <;> first | decide +kernel | exact canonical_of (by decide +kernel)
def oAmo : Ops := { d := 7, a := 1, b := 2, m := 3, x := { c := 2 } }
theorem witness_AtomicsSwap : oAmo.x.pd = false ∧ wMemR.srcB oAmo = .ok 5 ∧ wMemR.srcC oAmo = .ok 5 ∧
    (0x1001040 : Word).toNat % bytesOfW oAmo.m = 0 ∧ (0x1001040 : Word).toNat % 4 = 0 ∧
    wMemR.access { r := true, w := true } 0x1001040 = .ok (.phys 0x2000040 0x6000000002000003) ∧
    StoreFree wMemR (.phys 0x2000040 0x6000000002000003) 8 ∧
    wMemR.readLoc (.phys 0x2000040 0x6000000002000003) 8 ≠ 5 ∧ (mem wMemR 0x2000040 8 5).readLoc (.phys 0x2000040 0x6000000002000003) 8 = 5 ∧
    wMemR.locPoisoned (.phys 0x2000040 0x6000000002000003) 8 = false := by
  and_intros <;> decide +kernel
/-- An atomic whose d names a bound port. -/
def oAmoPort : Ops := { d := 1, a := 1, b := 2, m := 3, x := { c := 2, pd := true } }
theorem witness_AtomicsSwap_port : oAmoPort.x.pd = true ∧ (ported wMemR).srcA oAmoPort = .ok 0x1001040 ∧ (ported wMemR).srcB oAmoPort = .ok 5 ∧
    (match (ported wMemR).storeLoc 0x1001040 (.phys 0x2000040 0x6000000002000003) 8 5 with
      | .ok b => (((b.flag 0).acquire oAmoPort).send 1 0).toOption.isSome
      | .error _ => false) = true := by
  and_intros <;> decide +kernel
theorem witness_FaultingAccessTraps : (0x1001041 : Word).toNat % 8 ≠ 0 ∧
    wMemR.check wMemR.task.who { w := true } 0x1F00000 = .error (.translation 1) ∧
    wMemR.check wMemR.task.who { w := true } 0x1003000 = .error .permission ∧
    ((mem wMemR 0x4030 8 0x6000000802000003).setStack 1 { state := .offline }).check wMemR.task.who { w := true } 0x1006000 =
      .error .stack := by
  and_intros <;> decide +kernel
/-- A load, an atomic and a demand page that are refused; the register operands of the atomics. -/
theorem witness_FaultingAccessTraps_more : wMemR.srcA oLd = .ok 0x1001040 ∧ wMemR.srcD oLd = .ok 5 ∧ wMemR.srcB oAmo = .ok 5 ∧ wMemR.srcC oAmo = .ok 5 ∧
    (0x1001042 : Word).toNat % 4 ≠ 0 ∧ (let n : Want := { r := true, ctr := .allow }
     wMemR.check wMemR.task.who n 0x1F00000 = .error (.translation 1) ∧ (mem wMemR 0x4018 8 0x800000002002003).check wMemR.task.who n 0x1003000 = .error .permission ∧
       wMemR.check wMemR.task.who n 0x1004000 = .error (.paging 4) ∧
       ((mem wMemR 0x4030 8 0x6000000802000003).setStack 1 { state := .offline }).check wMemR.task.who n 0x1006000 = .error .stack) ∧
    (let n : Want := { r := true, w := true }
     wMemR.check wMemR.task.who n 0x1F00000 = .error (.translation 1) ∧ wMemR.check wMemR.task.who n 0x1003000 = .error .permission ∧
       wMemR.check wMemR.task.who n 0x1004000 = .error (.paging 4) ∧
       ((mem wMemR 0x4030 8 0x6000000802000003).setStack 1 { state := .offline }).check wMemR.task.who n 0x1006000 = .error .stack) := by
  and_intros <;> decide +kernel
theorem witness_OperandChecks : (0x1000000000000 : Word).extractLsb' 48 16 ≠ 0 ∧ (0xFFFFFFFC0000 : Word).extractLsb' 48 16 = 0 ∧
    (0 : Nat) < ({ lsplit := 1 } : Core).scratchBytes ∧
    w0.lookup w0.task.who 0x1F00000 = .absent 3 false ∧ w0.lookup w0.task.who 0x1003000 = .leaf 0x2000000002002003 4 12 ∧
    pteW 0x2000000002002003 = false ∧ permitted true { r := true } 0x2000000002002003 ∧ pteRep 0x2000000002002003 = false ∧
    (w0.stack (stackOf (leafPa 0x2000000002002003 4 0x1003000))).reachable 0 ∧
    (mem w0 0x4030 8 0xE000000000000003).lookup w0.task.who 0x1006000 = .malformed ∧
    (w0.stack 0).inTransit = false ∧ w0.task.who.granted = none ∧ w0.way 1 0 0x2000000 = true ∧ w0.reach w0.task.who 0 5 = false ∧
    (let s := w0.setStack 0 { state := .owned, owner := 2, reach := 1, tenant := some 1 }
     (s.stack 0).reachable 0 = true ∧ s.way 1 0 0x2002000 = false ∧ s.arc (s.dies 1) 0 (s.stack 0).owner.toNat = none ∧
       s.heldHere s.task.who { r := true } 0x1003000 0x2002000 0x2000000002002003 = false ∧ s.walk false s.task.who 0x1003000 ≠ .malformed) ∧
    (let s := w0.setStack 0 { state := .handing, step := 3, reach := 1, tenant := some 1 }
     (s.stack 0).inTransit = true ∧ (s.stack 0).reachable 0 = true ∧ s.heldHere w0.task.who { w := true } 0x1001000 0x2000000 0x6000000002000003 = false) := by decide +kernel

theorem witness_Exceptions : (w0.task.tvec.getLsbD 0 = true ∧ w0.task.stat.getLsbD 1 = false ∧ w0.breakEntry = none) ∧
    ((user w0).task.tvec.getLsbD 0 = false ∧ (user w0).task.cstate = .running) ∧ w0.task.sup = true ∧ (user w0).task.sup = false := by
  decide +kernel

def wPort : State := ported w0
def wWord : PortWord := { tenant := 1, src := 7, rank := 5, port := 2, stamp := 0, value := 9 }
theorem witness_Ports : (wPort.task.port 0).pb.getLsbD 63 = false ∧ (wPort.task.port 1).pb.getLsbD 63 = true ∧
    (wPort.task.port 1).pb.extractLsb' 32 20 = 5 ∧ ((bound w0).core 0).ranks = [] ∧
    (wPort.core 0).ranks.find? (fun e => rankOf e == 5) = some 0x100005FFF0020 ∧ rankPkg 0x100005FFF0020 = 0xFFF ∧
    wPort.paddock 1 = some wPad ∧ rankCore 0x100005FFF0020 = 8 ∧ wPad.hasCore 8 = true ∧ (wPort.core 8).redirect = [] ∧
    wPort.arc (wPad.cfg.dies.map (·.toNat)) 0 0 = some [] ∧ wPort.stopsAt 1 (wordRouters 0 8 []) = none ∧
    (∃ r, ({ wPort with routerBits := [] } : State).stopsAt 1 (wordRouters 0 8 []) = some r ∧ True) ∧ wPort.arc [0, 1, 2, 3] 0 2 = none ∧
    (wPort.core 8).inbound = [] ∧ (∀ u, u ∈ wPort.tasks → u.movingFrom 8 = false) ∧
    (∀ t, t ∈ wPort.tasks → t.holds 9 wWord.tenant wWord.rank = false) ∧ wPort.postRoom wWord.tenant = true ∧
    (∃ t, wPort.tasks.find? (·.holds 8 wWord.tenant wWord.rank) = some t ∧ t.tid = 2 + 0x001000000000 ∧ (t.port 1).queue.length < 4) ∧
    (let x : QWord := { word := wWord, arrival := 0 }; ((wPort.setCore 8 { inbound := [x] }).core 8).inbound = [x]) ∧
    (∃ u, wPort.send 1 7 = .ok u) := by
  and_intros <;> first | decide +kernel | exact ok_of (by decide +kernel) | exact okEx_of (by decide +kernel)

/-- A rank of package 7, which ports 0 and 1 lead to; the links of the base dies that the words of core 0 pass. -/
def wFar (ports : Bool) : State :=
  let s := (bound w0).setCore 0 { (bound w0).core 0 with ranks := [0x1000050070020] }
  { s with routes := [(7, 3)], links := if ports then s.links.set 5 { state := .up } else s.links }
theorem witness_PeerSends : smapWf {} (wFar true).peerTx = true ∧ ((wFar true).task.port 1).pb.getLsbD 63 = true ∧
    ((wFar true).core 0).ranks.find? (fun e => rankOf e == 5) = some 0x1000050070020 ∧ rankPkg 0x1000050070020 ≠ 0xFFF ∧ (rankPkg 0x1000050070020).toNat = 7 ∧
    (wFar false).outPort 0 7 = none ∧ (wFar true).outPort 0 7 = some 0 ∧ (wFar true).arc ((wFar true).dies 1) 0 (0 / 3) = some [] ∧
    (wFar true).stopsAt 1 (portRouters 0 0 []) = none ∧ (({ wFar true with routerBits := [] } : State).stopsAt 1 (portRouters 0 0 [])).isSome = true ∧
    (let s : State := { wFar true with peerTx := [(7, { next := 4, unacked := [(3, wWord)], port := some 1 })] }
     (smapGet {} s.peerTx (0 * 4096 + 7)).unacked ≠ [] ∧ (smapGet {} s.peerTx (0 * 4096 + 7)).port ≠ some 0) ∧
    (let s : State := { wFar true with links := (wFar true).links.set 8 { state := .up }, routes := [(7, 8)] }
     s.outPort 0 7 = some 3 ∧ s.arc (s.dies 1) 0 (3 / 3) = none) := by
  and_intros <;> decide +kernel
/-! Vector registers of one tag, governed by predicate 1: two registers, five active elements of 32 bits. -/

def vec (f : Fmt) (bits : BitVec 128) : State :=
  w0.setTask { w0.task with v := Vector.replicate 32 { bits := bits, tag := f }, p := w0.task.p.set 1 { span := 2, ew := 3, count := 5 } }
def oVec : Ops := { len := .w2, d := 8, a := 2, b := 4, m := 1, x := { c := 6 } }
theorem witness_governed : Governed (vec .i32 7) oVec ∧ oVec.x.pa = false ∧ oVec.x.pb = false ∧ oVec.x.pc = false ∧
    Fits (vec .i32 7) oVec true true ∧ (vec .i32 7).task.active oVec 32 = 5 ∧ Canonical (vec .i32 7) := by
  refine ⟨?_, rfl, rfl, rfl, ?_, by decide +kernel, canonical_of (by decide +kernel)⟩
  · unfold Governed; decide +kernel
  · unfold Fits; decide +kernel
theorem witness_TagChecks : (vec .i32 7).task.span oVec = 2 ∧ (Fmt.i32 ≠ .raw) ∧ inSet intFloats Fmt.i32.code.toNat = true ∧
    (∀ j, j < 2 → ((vec .i32 7).task.rdV (oVec.a.toNat + j)).tag = .i32 ∧ ((vec .i32 7).task.rdV (oVec.b.toNat + j)).tag = .i32) ∧
    ((vec .i32 7).task.rdV oVec.a.toNat).tag ≠ .fp32 := by decide +kernel
/-- A group with an unequal tag, and a format that no integer operation takes. -/
theorem witness_TagChecks_more : inSet intTags Fmt.fp32.code.toNat = false ∧ 1 ≤ (vec .fp32 7).task.span oVec ∧ oVec.x.ri = false ∧
    oVec.a.toNat + (vec .fp32 7).task.span oVec ≤ 32 ∧ oVec.b.toNat + (vec .fp32 7).task.span oVec ≤ 32 ∧
    (let s := (vec .i32 7).setTask { (vec .i32 7).task with v := (vec .i32 7).task.v.set 3 { tag := .i16 } }
     (s.task.rdV 2).tag = .i32 ∧ (s.task.rdV 3).tag ≠ .i32) := by decide +kernel
theorem witness_LaneResults : (vec .i32 7).task.laneFormat oVec intFloats true = .ok .i32 ∧ (satOf oVec && Fmt.i32.isFloat) = false ∧
    (vec .n8 7).task.laneFormat oVec intTags true = .ok .n8 ∧ (vec .fp32 0).task.laneFormat oVec floats true = .ok .fp32 ∧
    (vec .ob4 0).task.laneFormat oVec anyTag true = .ok .ob4 ∧ (vec .bf16 0).task.laneFormat oVec intFloats false = .ok .bf16 ∧
    (vec .e4m3 0).task.laneFormat oVec floats false = .error (Stop.format 0 .raw .e4m3 0) := by
  and_intros <;> decide +kernel
theorem witness_LaneResultsOfThree : (vec .i32 7).task.tagsAre 2 oVec.x.c 2 .i32 true .i32 = .ok () ∧
    (vec .i32 7).task.laneFormat oVec intTags false = .ok .i32 ∧ (vec .i32 7).task.tagsIn 1 oVec.b 2 (sameWidthInt .i32) = .ok () ∧
    (vec .fp32 0).task.laneFormat oVec intFloats true = .ok .fp32 ∧ Fmt.fp32.isInt = false ∧
    (vec .i32 7).task.laneFormat oVec anyTag true = .ok .i32 ∧ (vec .i32 7).task.tagsIn 2 oVec.x.c 2 (sameWidthInt .i32) = .ok () ∧
    (vec .n8 7).task.laneFormat oVec anyTag false = .ok .n8 ∧ (vec .n8 7).task.tagsAre 1 oVec.b 2 (nOf 8) true (nOf 8) = .ok () := by
  and_intros <;> decide +kernel
/-- FP32 of one register from a half of a BF16 one (part 1), and of BF16 to FP32 over whole registers (part 0). -/
def oCvt : Ops := { len := .w2, d := 8, a := 2, m := 0, x := { tag := .fp32, mod := 4 } }
theorem witness_ConversionResults : (vec .bf16 7).task.span oCvt = 1 ∧ 1 * perReg 32 = 4 ∧ (oCvt.x.mod.extractLsb' 2 3).toNat = 1 ∧
    (1 + 1) * (4 * 16) ≤ 128 ∧ ((vec .bf16 7).task.rdV 2).tag = .bf16 ∧ oCvt.x.tag.isBlock = false ∧
    (vec .i32 7).task.span { oCvt with m := 1, x := { tag := .fp32 } } = 2 ∧ 128 ≤ 2 * perReg 32 * 32 ∧
    (∀ j, j < 2 → ((vec .i32 7).task.rdV (2 + j)).tag = .i32) := by decide +kernel
/-- To a block format: the group of d, the group of a, and the source tag. -/
theorem witness_ConversionResults_block : let o : Ops := { oVec with m := 0, x := { tag := .ob4 } }
    o.x.tag.isBlock = true ∧ Governed (vec .bf16 7) o ∧ o.x.pa = false ∧ o.x.pb = false ∧ o.d.toNat + (vec .bf16 7).task.span o ≤ 32 ∧
    (∀ j, j < 4 → ((vec .bf16 7).task.rdV (o.a.toNat + j)).tag = .bf16) := by
  simp only [Governed]; decide +kernel
theorem witness_Reductions :
    (∀ j, j < 2 → dotClass ((vec .i8 7).task.rdV (2 + j)).tag = some (4, false)) ∧
    dotClass .bf16 = some (2, true) ∧ (vec .i32 7).task.laneFormat oVec intFloats false = .ok .i32 ∧
    (vec .n16 7).task.laneFormat oVec anyTag false = .ok .n16 ∧
    (reg (vec .fp32 0) [(4, 0)]).task.rd oVec.b = 0 ∧ (reg (vec .fp32 0) [(4, 65)]).task.rd oVec.b = 65 ∧
    (reg (vec .fp32 0) [(4, 4)]).task.rd oVec.b = 4 ∧ (vec .fp32 0).task.laneFormat oVec intFloats false = .ok .fp32 ∧
    oVec.d.toNat + (4 * 32 + 127) / 128 ≤ 32 ∧ oVec.x.c.toNat + (4 + 7) / 8 ≤ oVec.d.toNat := by
  and_intros <;> decide +kernel
/-- The tags that VDOT asks of its three groups, and the rest of its premises. -/
theorem witness_dot : let s := (vec .i8 7).setTask { (vec .i8 7).task with v := ((vec .i8 7).task.v.set 8 { tag := .i32 }).set 9 { tag := .i32 } }
    Fits s oVec true false ∧ (∀ j, j < s.task.span oVec → dotClass (s.task.rdV (oVec.a.toNat + j)).tag = some (4, false) ∧
      dotClass (s.task.rdV (oVec.b.toNat + j)).tag = some (4, false) ∧ (s.task.rdV (oVec.d.toNat + j)).tag = .i32) ∧ oVec.x.tag = .raw := by
  simp only [Fits]; decide +kernel
def oPred : Ops := { len := .w1, d := 2, a := 3, b := 2, m := 0 }
theorem witness_PredicateInstructions : Governed (reg w0 [(3, 0x4405)]) oPred ∧ (reg w0 [(3, 0x4405)]).srcA oPred = .ok 0x4405 ∧
    (predOf 0x4405).legal = true ∧ (predOf 0x44FF).legal = false ∧ (vec .i32 7).task.laneFormat oVec intTags false = .ok .i32 ∧
    (∀ j, j < 1 → groupElem (vec .i32 7).task oVec.a 32 j ≠ 0) ∧ 1 < (vec .i32 7).task.active oVec 32 ∧
    groupElem (vec .i32 7).task oVec.a 32 1 = 0 ∧ (∀ j, j < 5 → groupElem (vec .i32 (BitVec.allOnes 128)).task oVec.a 32 j ≠ 0) := by
  and_intros <;> first | decide +kernel | exact ok_of (by decide +kernel) | (unfold Governed; decide +kernel)
theorem witness_VectorMoves : (vec .i16 7).task.span { oVec with m := 0 } = 1 ∧ ((vec .i16 7).task.rdV oVec.a.toNat).tag = .i16 ∧
    (reg (vec .i16 7) [(4, 7), (2, 9)]).srcBL oVec = .ok 7 ∧ (reg (vec .i16 7) [(4, 8)]).srcB oVec = .ok 8 ∧
    (reg (vec .i16 7) [(2, 9)]).srcA oVec = .ok 9 ∧ 128 / laneBits .i16 ≤ 8 ∧ 7 < 128 / laneBits .i16 := by
  and_intros <;> decide +kernel

def wVm : State := reg (vec .i32 7) [(2, 0x1001000), (4, 0)]
def oVld : Ops := { oVec with x := { tag := .i32 } }
def locs5 : List (Word × Loc) := (List.range 5).map fun k => (BitVec.ofNat 64 (0x1001000 + 4 * k), .phys (0x2000000 + 4 * k) 0x6000000002000003)
theorem witness_VectorMemory_untraced : Untraced wVm := untraced_of (p := wPad) (by decide +kernel) (by decide +kernel)
theorem witness_VectorMemory : Governed wVm oVld ∧ wVm.vecAddr oVld = .ok 0x1001000 ∧ (0x1001000 : Word).toNat % (32 / 8) = 0 ∧
    wVm.locs { r := true } 0x1001000 4 5 = .ok locs5 ∧ wVm.locs { w := true } 0x1001000 4 5 = .ok locs5 ∧
    (∀ l, l ∈ locs5 → wVm.locPoisoned l.2 4 = false) ∧ wVm.task.tagsAre 3 oVld.d 2 .i32 true .i32 = .ok () ∧
    (∃ u, wVm.storeAll 4 (locs5.zip ((List.range 5).map (groupElem wVm.task oVld.d 32))) = .ok u) ∧
    ({ wVm with task := { wVm.task with p := wVm.task.p.set 1 { span := 1, ew := 0, count := 32 } } } : State).task.active oVld 4 / 32 = 1 ∧
    (∃ l, wVm.blockLocs { w := true } 0x1001000 0x1001400 1 = .ok l ∧ l.length = 1) ∧
    (∃ l, wVm.blockLocs { r := true } 0x1001000 0x1003000 1 = .ok l ∧ l.all (fun x => !wVm.locPoisoned x.1.2 16 && !wVm.locPoisoned x.2.2 1) = true) := by
  and_intros <;> first | decide +kernel | exact ok_of (by decide +kernel) | exact okEx_of (by decide +kernel) | exact okAnd_of (by decide +kernel) | (unfold Governed; decide +kernel)

/-! Streams: stream 1 of the task is `r`; its descriptor reads nine 32-bit elements from 0x1001100 on. -/

def str (r : Stream) : State := w0.setTask { w0.task with streams := w0.task.streams.set 1 r }
def dRead : Desc := { base := 0x1001100, stride0 := 4, ext0 := 9, ext1 := 1, ext2 := 1, ibound := 0xFFFFFFFF, fmt := .i32 }
def dSum : Desc := { dRead with mode := 2, op := 1 }
def oStr : Ops := { len := .w2, d := 2, a := 1, m := 1 }
def dBits (fmt mode : Nat) : Nat := 0x1001100 + 4 * 2 ^ 64 + 9 * 2 ^ 192 + 2 ^ 224 + 2 ^ 256 + 0xFFFFFFFF * 2 ^ 288 + fmt * 2 ^ 320 + mode * 2 ^ 325
def wDef : State := mem (reg w0 [(1, 0x1001000)]) 0x2000000 64 (dBits Fmt.i32.code.toNat 0)
theorem witness_StreamDefineAndGo : wDef.srcA oStr = .ok 0x1001000 ∧ (wDef.task.stream 2).state = .free ∧ wDef.contexts wDef.task.core < 8 ∧
    wDef.access { r := true } 0x1001000 = .ok (.phys 0x2000000 0x6000000002000003) ∧
    wDef.access { r := true } (0x1001000 + 64) = .ok (.phys 0x2000040 0x6000000002000003) ∧
    wDef.notHaltered (.phys 0x2000000 0x6000000002000003) = .ok () ∧ wDef.notHaltered (.phys 0x2000040 0x6000000002000003) = .ok () ∧
    (let x : BitVec 1024 := BitVec.ofNat 1024 (wDef.mem.read 0x2000000 64 + 2 ^ 512 * wDef.mem.read 0x2000040 64)
     (Fmt.ofCode (x.extractLsb' 320 5).toNat).isSome = true ∧ (descOf x).legal = true ∧ (descOf x).evmask = 0) ∧
    wDef.locPoisoned (.phys 0x2000000 0x6000000002000003) 64 = false ∧ wDef.locPoisoned (.phys 0x2000040 0x6000000002000003) 64 = false ∧
    ((str { state := .faulted, desc := dRead, faultJ := 8 }).task.stream 1).faultJ < dRead.count := by
  and_intros <;> decide +kernel
/-- Elements in the buffer already, and elements that the stream unit has yet to read. -/
theorem witness_StreamNextDelivers :
    (let r := (str { state := .running, desc := dRead, fidx := 2, buf := [(0, 5), (1, 6)] }).task.stream 1
     r.buffered 1 = true ∧ r.nextLegal 1 = true) ∧
    canonicalB ((str { state := .running, desc := dRead }).prepare oStr 1 true) = true ∧
    (let r := ((str { state := .running, desc := dRead }).prepare oStr 1 true).task.stream 1
     r.nextLegal 1 = true ∧ r.state ≠ .faulted ∧ (∀ i, i < 1 → r.buf.any (·.1 == r.didx + i) = true ∧ r.didx + i ∉ r.pend)) ∧
    (let r := ((str { state := .running, desc := dRead }).prepare oStr 5 (groupFits oStr.d 2).isOk).task.stream 1
     r.nextLegal 5 = true ∧ r.state ≠ .faulted ∧ (∀ i, i < 5 → r.buf.any (·.1 == r.didx + i) = true ∧ r.didx + i ∉ r.pend)) := by decide +kernel
theorem witness_StreamPutStores :
    let r : Stream := { state := .running, desc := { dRead with mode := 1 }, didx := 8 }
    let s := reg (str r) [(3, 7)]
    s.task.stream 1 = r ∧ s.srcB { oStr with b := 3 } = .ok 7 ∧ r.didx < r.desc.count ∧ vaOf (r.desc.element r.didx) = some 0x1001120 ∧
    s.access { w := true } 0x1001120 = .ok (.phys 0x2000120 0x6000000002000003) ∧ StoreFree s (.phys 0x2000120 0x6000000002000003) 4 ∧ s.traced (.phys 0x2000120 0x6000000002000003) = .ok s := by
  and_intros <;> decide +kernel
theorem witness_StreamPutVector :
    let r : Stream := { state := .running, desc := { dRead with mode := 1 } }
    let s := (vec .i32 7).setTask { (vec .i32 7).task with streams := (vec .i32 7).task.streams.set 1 r }
    s.task.tagsAre 1 oVec.b 2 .i32 true .i32 = .ok () ∧ s.task.active oVec 32 ≤ r.desc.count - r.didx ∧
    (∀ i, i < 5 → (vaOf (r.desc.element (r.didx + i))).isSome = true) ∧
    ∃ u, s.sputAll { oVec with a := 1 } ((List.range 5).map (groupElem s.task oVec.b 32)) = .ok u ∧ True := by
  and_intros <;> first | decide +kernel | exact ok_of (by decide +kernel) | exact okEx_of (by decide +kernel) | exact okAnd_of (by decide +kernel)
theorem witness_StreamControl :
    (let q := ((str { state := .sinking, desc := dSum, fidx := 9, didx := 9, acc := 44, flg := 1 }).prepareEnd 1).task.stream 1
     q.state = .ended ∧ q.desc.reducing = true ∧ q.flg = 1) ∧
    canonicalB ((str { state := .sinking, desc := dSum, fidx := 9, didx := 9 }).prepareEnd 1) = true ∧
    (let q := ((str { state := .running, desc := dRead, fidx := 9, didx := 9 }).prepareEnd 1).task.stream 1
     q.state ≠ .free ∧ q.state ≠ .defined ∧ q.state ≠ .faulted ∧ q.desc.reducing = false ∧ q.didx = q.desc.count) ∧
    ((str { state := .floated, desc := dRead, station := some (0, 3) }).task.stream 1).station ≠ none ∧
    ((str {}).task.stream 1).state = .free := by decide +kernel
theorem witness_StreamTravels :
    let t (r : Stream) := (str r).task
    let away : Stream := { state := .floated, desc := dRead, station := some (0, 1) }
    let hop : Stream := { state := .hopping, desc := dRead, hops := 0xFFFE }
    (t {}).streaming = true ∧
    w0.stationOf (t { state := .running, desc := dRead }) { state := .running, desc := dRead } = some (0, 0x2000100 / 64 % 160) ∧
    w0.stationOf (t away) away = some (0, 0x2000100 / 64 % 160) ∧ some (0, 0x2000100 / 64 % 160) ≠ away.station ∧
    0 < dRead.count ∧ dRead.reducing = false ∧ dRead.evmask &&& 2 = 0 ∧ dSum.reducing = true ∧ (w0.stationOf (t hop) hop).isSome = true ∧
    { away with recalling := true }.recalling = true := by
  decide +kernel
/-- No event of the stream is held; one is. -/
theorem witness_StreamTravels_held : let s := str { state := .running, desc := dRead, fidx := 2, buf := [(0, 5)], pend := [0] }
    s.eventHeld s.task.tid 1 = false ∧ (s.task.stream 1).pend ≠ [] ∧
    ({ s with heldAdds := [{ va := 0x1002000, pa := none, amount := 1, tid := s.task.tid, core := 0, aspace := 0x1001, sup := true, stream := some 1 }] } : State).eventHeld s.task.tid 1 = true := by
  decide +kernel
theorem witness_StreamElementEvents :
    let t (r : Stream) := (str r).task
    let r : Stream := { state := .running, desc := dRead, fidx := 7 }
    let d : Desc := { dRead with mode := 3, tbase := 0x1001200 }
    let gone : Desc := { dRead with base := 0x1F00000 }
    let away := { r with state := .floated, station := some (0, 0x200011C / 64 % 160) }
    (t r).streaming = true ∧ r.pend = [] ∧ r.fidx + 1 < r.desc.count ∧ (str r).eventHeld (t r).tid 1 = false ∧
    (∃ x, w0.fetchLoc ((t r).streamWho r) (t r).tid (r.desc.element r.fidx) = .ok x ∧ w0.needsX x.2 = false ∧ w0.locPoisoned x.2 4 = false) ∧
    w0.stationOf (t away) away = away.station ∧
    (∃ x, w0.fetchLoc ((t away).streamWho away) (t away).tid (dRead.element 7) = .ok x ∧ w0.needsX x.2 = false ∧ w0.locPoisoned x.2 4 = false) ∧
    (∃ x, w0.elementPath ((t r).streamWho r) (t r).tid dRead 3 = .ok x ∧ x.any w0.leaves = false) ∧ d.target 5 < 0xFFFFFFFC0000 ∧
    (∃ x, w0.fetchLoc (w0.targetWho (t r) r (d.target 5)) (t r).tid (d.target 5) = .ok x ∧ w0.needsX x.2 = false ∧ w0.locPoisoned x.2 4 = false) ∧
    (∃ e, w0.fetchLoc ((t r).streamWho r) (t r).tid (gone.element 0) = .error (some e)) ∧ gone.evmask &&& 8 = 0 ∧
    w0.check ((t r).streamWho r) { w := true } 0x1001800 = .ok (.phys 0x2000800 0x6000000002000003) ∧
    w0.haltered (t r).tid (lineOf 0x2000800) = false ∧ w0.isCode 0x2000800 = false ∧ r.traced = none ∧
    w0.tracedFor (t r) (.phys 0x2000800 0x6000000002000003) = .ok w0 := by
  exact ⟨by decide +kernel, by decide +kernel, by decide +kernel, by decide +kernel, okAnd_of (by decide +kernel), by decide +kernel, okAnd_of (by decide +kernel),
    okAnd_of (by decide +kernel), by decide +kernel, okAnd_of (by decide +kernel), errSome_of (by decide +kernel), by decide +kernel, ok_of (by decide +kernel),
    by decide +kernel, by decide +kernel, rfl, ok_of (by decide +kernel)⟩

/-! Tiles: the window of the task names physical tiles 8 to 15. -/

def wTile : State :=
  let s := mem (reg w0 [(1, 9), (4, 5), (5, 0x1001000), (6, 0x1005000), (7, 64)]) 0x2000000 64 (Fmt.bf16.code.toNat * 2 ^ 64)
  let s := s.setTask { s.task with twin := 0x8F8E8D8C8B8A8988 }
  s.setCluster 0 { tiles := [(9, { tag := .bf16 })] }
def oTile : Ops := { len := .w2, d := 0, a := 1, x := { tag := .fp32 } }
theorem witness_TilesAndWeights : Canonical wTile ∧ wTile.task.window oTile.d.toNat = some 8 ∧ wTile.task.window oTile.a.toNat = some 9 ∧
    wTile.tileBusy wTile.task.cluster 8 true = false ∧ wTile.tileBusy wTile.task.cluster 9 false = false ∧ wTile.srcA oTile = .ok 9 ∧
    (wTile.tileAt 0 9).tag = .bf16 ∧ oTile.x.tag.isBlock = false ∧ 512 / fmtBits .fp32 ≤ 512 / fmtBits .bf16 ∧
    ((0x04 : BitVec 5).extractLsb' 2 3).toNat < (512 / fmtBits .bf16) / (512 / fmtBits .fp32) ∧
    wTile.srcA { oTile with a := 4 } = .ok 5 ∧ wTile.srcB { oTile with b := 5 } = .ok 0x1001000 ∧
    wTile.access { r := true } 0x1001000 = .ok (.phys 0x2000000 0x6000000002000003) ∧
    (let head : BitVec 256 := BitVec.ofNat 256 (wTile.mem.read 0x2000000 32)
     opClass (headTag head) ≠ 0 ∧ 5 + panelSize head ≤ 32768 ∧ (wTile.cluster 0).unitReserved 5 (5 + panelSize head) = false ∧
     wTile.locPoisoned (.phys 0x2000000 0x6000000002000003) 32 = false ∧
     ∃ ls, wTile.locs { r := true } 0x1001000 32 (panelSize head) = .ok ls ∧ ∀ l, l ∈ ls → wTile.locPoisoned l.2 32 = false) := by
  and_intros <;> first | decide +kernel | exact canonical_of (by decide +kernel) | exact ok_of (by decide +kernel) | exact okEx_of (by decide +kernel) | exact okAnd_of (by decide +kernel)
/-- Converting to a wider column count and to a block format: the parts that fit, the old tag that a part beyond 0 asks. -/
theorem witness_TileConverts_wide : let s := wTile.setCluster 0 { tiles := [(8, { tag := .i8 }), (9, { tag := .fp32 })] }
    s.task.window 0 = some 8 ∧ s.task.window 1 = some 9 ∧ (s.tileAt 0 9).tag = .fp32 ∧ s.tileBusy 0 8 true = false ∧ s.tileBusy 0 9 false = false ∧
    ¬ (512 / fmtBits .i8 ≤ 512 / fmtBits .fp32) ∧ ((0x04 : BitVec 5).extractLsb' 2 3).toNat < (512 / fmtBits .i8) / (512 / fmtBits .fp32) ∧
    (s.tileAt 0 8).tag = .i8 ∧ Fmt.ob4.isBlock = true ∧ ((0x1C : BitVec 5).extractLsb' 2 3).toNat < (512 / fmtBits .ob4) / (512 / fmtBits .fp32) ∧
    Canonical s := by
  and_intros <;> first | decide +kernel | exact canonical_of (by decide +kernel)
def oTld : Ops := { len := .w2, d := 0, a := 6, b := 7, x := { tag := .bf16 } }
/-- The operands of a tile access lie on a page of 1 GiB that takes tile locks. -/
def wTiles : State := reg (big wTile 0x6400000000000003) [(6, 0x8002020000)]
theorem witness_TileMemory :
    (∃ a, wTiles.planTile oTld false = .ok a ∧
      (∀ l, l ∈ a.lines → wTiles.haltered wTiles.task.tid l.1 = false) ∧ ∀ r, r ∈ a.rows → wTiles.poisoned r.2 64 = false) ∧
    (∃ a, wTiles.planTile { oTld with d := 1 } true = .ok a ∧ ∀ r, r ∈ a.rows ++ a.scs → wTiles.isCode r.2 = false) := by
  and_intros <;> first | decide +kernel | exact ok_of (by decide +kernel) | exact okEx_of (by decide +kernel) | exact okAnd_of (by decide +kernel)
/-- An access that waits for its first line, on a stack that stays and on one in transit, and one that holds all its lines. -/
theorem witness_TileAccesses : ∃ a, wTiles.planTile { oTld with d := 1 } true = .ok a ∧ a.store = true ∧ a.held = 0 ∧
    (∃ l, a.lines[0]? = some l ∧ (wTiles.stack (stackOf (64 * l.1))).inTransit = false ∧ wTiles.haltered wTiles.task.tid l.1 = false ∧ l.2 = .slice ∧
      ((wTiles.setStack 0 { state := .handing, step := 1 }).stack (stackOf (64 * l.1))).inTransit = true) ∧
    ∃ u, wTiles.commitTile { a with held := a.lines.length } = .ok u := by
  have h : (match wTiles.planTile { oTld with d := 1 } true with
    | .ok a => a.store && a.held == 0 && a.lines[0]?.any (fun l => !(wTiles.stack (stackOf (64 * l.1))).inTransit &&
        !wTiles.haltered wTiles.task.tid l.1 && l.2 == .slice &&
        ((wTiles.setStack 0 { state := .handing, step := 1 }).stack (stackOf (64 * l.1))).inTransit) &&
        (wTiles.commitTile { a with held := a.lines.length }).isOk | .error _ => false) = true := by
    decide +kernel
  split at h
  · rename_i a ha
    simp only [Bool.and_eq_true, Option.any_eq_true, beq_iff_eq, Bool.not_eq_true'] at h
    obtain ⟨⟨⟨h1, h2⟩, l, hl, ⟨⟨h3, h4⟩, h5⟩, h6⟩, h7⟩ := h
    exact ⟨a, ha, h1, h2, ⟨l, hl, h3, h4, h5, h6⟩, okEx_of h7⟩
  · cases h


/-! The matrix engine: tiles 8 and 9 are FP32 accumulators, 10 and 11 BF16 operands; unit 5 of the weight buffer heads a panel. -/

def wJobs (jobs : List (Nat × Job)) : State :=
  let s := reg w0 [(4, 0), (5, 5), (6, 0x1001000), (7, 0xFFFFFFFFFFFFFFFF), (8, 0x1001040)]
  let s := mem s 0x2000000 64 (mmaRecord 0 10 11 8 false 0).toNat
  let s := s.setTask { s.task with twin := 0x8F8E8D8C8B8A8988 }
  { s with clusters := [(0, { tiles := [(8, { tag := .fp32 }), (9, { tag := .fp32 }), (10, { tag := .bf16 }), (11, { tag := .bf16 })],
                              wbuf := [(5, { bytes := BitVec.ofNat 256 (Fmt.bf16.code.toNat * 2 ^ 64) })], jobs := jobs })], clk := 5000 }
def oMma : Ops := { len := .w2, d := 0, a := 2, b := 3, x := { c := 4 } }
def oMjob : Ops := { len := .w2, d := 9, a := 6, b := 7 }
def jTemplate : Job := { record := mmaRecord 0 10 11 8 false 0, tid := 0x001000000001, tenant := 1, aspace := 0x1001, core := 0, sup := true }
theorem witness_JobQueue : let s := wJobs []
    let c := s.cluster 0
    Canonical s ∧ s.task.cluster = 0 ∧ s.task.window 0 = some 8 ∧ s.task.window 1 = some 9 ∧ s.task.window 2 = some 10 ∧ s.task.window 3 = some 11 ∧
    s.srcC oMma = .ok 0 ∧ tagsRefused (c.tagAfter s.task.tid 10) (c.tagAfter s.task.tid 11) [c.tagAfter s.task.tid 8, c.tagAfter s.task.tid 9] (ctlAcc0 0) = none ∧
    ctlFits 0 .bf16 .bf16 ((groupSize .bf16 .bf16).getD 16) = true ∧ (∀ p, p ∈ [8, 9, 10, 11] → (c.tile p).loading = false) ∧ c.freeEntries ≠ [] ∧
    s.srcB { oMma with b := 5 } = .ok 5 ∧ c.panelFits 5 = true ∧ headTag (c.unit 5).bytes = .bf16 ∧ opClass .bf16 ≠ 0 := by
  and_intros <;> first | decide +kernel | exact canonical_of (by decide +kernel)
theorem witness_JobRecords : let s := wJobs []
    s.route 1 0 (0 / 288) = true ∧ s.srcA oMjob = .ok 0x1001000 ∧ s.srcB oMjob = .ok 0xFFFFFFFFFFFFFFFF ∧ s.load {} 0x1001000 64 64 = .ok (mmaRecord 0 10 11 8 false 0).toNat ∧
    (s.cluster 0).refuse jTemplate = 0 ∧ s.load {} 0x1001040 64 64 = .ok 0 ∧ (s.cluster 0).refuse { jTemplate with record := 0 } ≠ 0 := by
  and_intros <;> decide +kernel
/-- The way to the engine, its clocks, and both missing; a full queue. -/
theorem witness_JobRecords_more : let s := wJobs []
    s.engineWay 0 = true ∧ s.clocked 0 = true ∧ ({ s with islands := [] } : State).clocked 0 = false ∧
    ({ s with islands := [], links := State.reset.links } : State).engineWay 700 = false ∧
    ((wJobs ((List.range 32).map fun n => (n, { gen := 1, taken := true, state := .running }))).cluster 0).freeEntries = [] ∧
    ((wJobs ((List.range 32).map fun n => (n, { gen := 1, taken := true, state := .running }))).cluster 0).refuse jTemplate = 0 := by
  and_intros <;> decide +kernel
theorem witness_JobStatus :
    ((wJobs [(3, { jTemplate with gen := 5, taken := true, state := .done })]).jobStatus 0x0005000000000003).2 = true ∧
    ((wJobs [(3, { jTemplate with gen := 5, taken := true, state := .running })]).jobStatus 0x0005000000000003).2 = false ∧
    (wJobs []).queryWay 0x0005000000000003 = .ok () ∧
    (5 : BitVec 16) ++ 0#5 ++ BitVec.ofNat 11 0 ++ 0#27 ++ (3 : BitVec 5) = (0x0005000000000003 : Word) := by decide +kernel
theorem witness_JobEvents :
    let j : Job := { jTemplate with gen := 5, taken := true, mma := true, since := 4000, acc := .fp32, d1 := 9 }
    let w (j : Job) : State := wJobs [(3, j)]
    let one (j : Job) : Prop := ∀ n, n < 32 → n ≠ 3 → (((w j).cluster 0).job n).taken = false
    canonicalB (w { j with state := .queued }) = true ∧ (w j).clocked 0 = true ∧ (∀ t, t ∈ (w j).tasks → t.tid = j.tid → t.saved = none) ∧ one { j with state := .queued } ∧
    (j.kdone < j.kc ∧ one { j with state := .running } ∧ ((w { j with state := .running }).cluster 0).kstepCode { j with state := .running } = 0 ∧
      smapMap {} ((w { j with state := .running }).cluster 0).jobs (fun _ x => x.aged 5000) = ((w { j with state := .running }).cluster 0).jobs) ∧
    ({ j with state := .running, kdone := 1 } : Job).kdone = j.kc ∧
    (let q : Job := { j with state := .queued, since := 904, epri := 2 }; q.since + 4096 ≤ 5000 ∧ 5000 < q.since + 8192 ∧ q.epri < 3) ∧
    ((wJobs ((List.range 31).map fun n => (n, { gen := 1, taken := true, state := .running }))).cluster 0).freeEntries = [31] ∧
    (wJobs []).refuseRemote 5 (mmaRecord 0 10 11 8 false 0) 1 ≠ 0 ∧
    (let r : BitVec 512 := mmaRecord 0 10 11 8 false 0 ||| ((0x001000000000005 : BitVec 512) <<< 320)
     ((wJobs []).setCluster 0 { (wJobs []).cluster 0 with capt := ((wJobs []).cluster 0).capt.set 0 0x8001000000000005 }).refuseRemote 0 r 1 = 0) := by decide +kernel
theorem witness_JobHolds :
    let j : Job := { jTemplate with gen := 5, taken := true, state := .running }
    let s : State := { wJobs [(3, j)] with task := { (wJobs []).task with cstate := .migrating } }
    s.tasks.any (fun t => t.halted && t.cluster == 0 && j.touches t) = true ∧ j.kdone < j.kc ∧ j.state ≠ .held ∧
    s.findTask 0x001000000099 = none := by decide +kernel
theorem witness_BlockProduct : let a : Tile := { tag := .i8 }; let f : Tile := { tag := .fp16 }
    a.tag = .i8 ∧ f.tag = .fp16 ∧ (0 : Word).getLsbD 0 = false ∧ (0 : Word).getLsbD 1 = false := by decide +kernel

/-! Tasks and contexts: `other t` has the task `t` beside the executing one. -/

def other (t : Task) : State := { w0 with others := [t], clk := 70000 }
def tOther : Task := { tid := 0x001000000002, cstate := .waiting, core := 8, stat := 1, aspace := 0x1001, ctxa := 0x1000000104E00, tvec := 0x2001 }
theorem find_other (t : Task) (h : t.tid = tOther.tid) : (other t).findTask t.tid = some t := by
  have hn : (w0.task.tid == t.tid) = false := by rw [h]; decide +kernel
  simp [State.findTask, State.tasks, other, hn]
theorem other_unique (t : Task) : ∀ u ∈ (other t).others, u.tid = t.tid → u = t := by simp [other]
/-- A spawn record: program counter, three arguments, stack pointer, own core, context area. -/
def wSpawn : State :=
  mem (reg w0 [(1, 0x1001000)]) 0x2000000 64 (0x1000000 + 7 * 2 ^ 64 + 8 * 2 ^ 128 + 9 * 2 ^ 192 + 0x1005000 * 2 ^ 256 + 2 ^ 380 + 0x110000 * 2 ^ 384)
def oTask : Ops := { len := .w1, d := 9, a := 1, b := 2 }
theorem witness_TaskCreationAndExit : Canonical wSpawn ∧ wSpawn.srcA oTask = .ok 0x1001000 ∧
    wSpawn.load {} 0x1001000 64 64 = .ok (wSpawn.mem.read 0x2000000 64) ∧ wSpawn.paddock 1 = some wPad ∧
    (let r := spawnRecord (BitVec.ofNat 512 (wSpawn.mem.read 0x2000000 64))
     r.twin = 0 ∧ r.sup = false ∧ wSpawn.recordLegal r 1 = true ∧ r.target 0 = 0) ∧ wSpawn.hasRoom 0 = true ∧ wSpawn.route 1 0 (0 / 2304) = true ∧ (wSpawn.freeSlot 0).isSome = true ∧
    (∀ u, u ∈ w0.others → u.tid ≠ w0.task.tid) ∧ w0.task.cstate = .running ∧ w0.delivering w0.task.tid = false ∧ w0.task.groups = [] := by
  and_intros <;> first | decide +kernel | exact canonical_of (by decide +kernel) | exact ok_of (by decide +kernel) | exact freeSlot_isSome (by decide +kernel) (by decide +kernel) | exact hasRoom_of (by decide +kernel)
/-- What EXIT's leaves ask: no group, or one whose record can be written. -/
theorem witness_ExitReleases_leaves : w0.mayLeave w0.task = true ∧ w0.mayLeave { w0.task with groups := [0x2000100] } = true ∧
    ({ w0 with halters := [{ line := 0x2000100 / 64, tid := 9, level := .slice, die := 0 }] } : State).mayLeave { w0.task with groups := [0x2000100] } = false := by
  and_intros <;> decide +kernel
theorem witness_WaitingTasks :
    (∀ u, u ∈ w0.others → u.cstate = .running → u.core ≠ 0) ∧ w0.task.wait = .none ∧ w0.srcA oTask = .ok 0 ∧ (w0.core 0).ready = [] ∧
    (reg w0 [(1, 70000)]).srcA oTask = .ok 70000 ∧ oTask.x.pd = false ∧ (0x1001000 : Word).toNat % 8 = 0 ∧
    (reg w0 [(1, 0x1001000)]).access { r := true, home := true } 0x1001000 = .ok (.phys 0x2000000 0x6000000002000003) ∧
    (reg w0 [(1, 0x1001000)]).notHaltered (.phys 0x2000000 0x6000000002000003) = .ok () ∧
    BitVec.ofNat 64 (w0.mem.read 0x2000000 8) = 0 ∧ BitVec.ofNat 64 (w0.mem.read 0x2000000 8) ≠ 1 := by
  and_intros <;> decide +kernel
/-- The word of a WFE is not poisoned; an abandoned wait, and one that has timed out. -/
theorem witness_WaitForEvent_more : w0.poisoned 0x2000000 8 = false ∧ ({ w0.task with wait := .wfe 5 4464 true 0 } : Task).wait = .wfe 5 4464 true 0 ∧
    4464 + 65536 ≤ (70000 : Nat) := by decide +kernel
/-- A task for each wait, at the clk where its condition has just come (a count), and just not. -/
theorem witness_WaitsEnd : (∀ w, (other { tOther with wait := w }).findTask tOther.tid = some { tOther with wait := w }) ∧
    (other tOther).clk = 70000 ∧ 4464 + 65536 ≤ 70000 ∧ tOther.tvec.getLsbD 0 = true ∧ tOther.stat.getLsbD 1 = false ∧ tOther.cstate = .waiting :=
  ⟨fun _ => find_other _ rfl, rfl, by decide, by decide +kernel, by decide +kernel, rfl⟩
/-- A context that lies in its area, one that waits in the ready queue of core 8, and one whose old core has still to forward words. -/
def tSaved : Task := { tOther with cstate := .preempted, saved := some [] }
def tReady : Task := { tOther with cstate := .ready, saved := some [] }
def wReady : State := (other tReady).setCore 8 { ready := [tReady.tid] }
theorem witness_nothing_out : NothingOut (other tOther) tOther := by
  unfold NothingOut; decide +kernel
theorem witness_ContextMoves :
    Canonical (other tSaved) ∧ w0.task.tile = none ∧ tOther.saved = none ∧ { tOther with cstate := .migrating }.cstate = .migrating ∧
    (other tSaved).paddock 1 = some wPad ∧ wPad.hasCore 8 = true ∧ tSaved.oldCore = none ∧ ((other tSaved).freeSlot 8).isSome = true ∧
    ((other tSaved).readArea tSaved).ok = true ∧ (wReady.core 8).ready = [tReady.tid] ∧ (wReady.emptySlot 8).isSome = true ∧
    ((wReady.setCore 8 { wReady.core 8 with ready := [] }).readArea tReady).ok = true ∧
    { tOther with cstate := .running, oldCore := some 16 }.inSlot = true ∧ ((other tOther).core 16).held = [] := by
  and_intros <;> first | decide +kernel | exact canonical_of (by decide +kernel) | exact freeSlot_isSome (by decide +kernel) (by decide +kernel) | exact emptySlot_isSome (by decide +kernel)
/-- Task 2 lies at the head of the ready queue of core 0, whose slots 1 to 3 are free; neither context area can be reached. -/
def tNext : Task := { tReady with core := 0, target := 0 }
def wSwap : State := (noArea (other tNext)).setCore 0 { ready := [tNext.tid] }
def wSwapped : State :=
  let s := ((wSwap.advance oTask).haltNow).saveTask wSwap.task.tid .ready 0
  s.setCore 0 { s.core 0 with ready := [] ++ [wSwap.task.tid] }
theorem witness_YieldSwapTurns : Canonical wSwap ∧ wSwap.task.cstate = .running ∧ wSwap.task.saved = none ∧ wSwap.task.tile = none ∧ wSwap.task.dataErr = none ∧
    (wSwap.core wSwap.task.core).ready = tNext.tid :: [] ∧ tNext.tid ≠ wSwap.task.tid ∧ (∀ u ∈ wSwap.others, u.tid ≠ wSwap.task.tid) ∧
    (∀ u ∈ wSwap.others, u.tid = tNext.tid → u = tNext) ∧ tNext ∈ wSwap.others ∧ tNext.cstate = .ready ∧ tNext.saved = some [] ∧ tNext.oldCore = none ∧
    ((((wSwap.advance oTask).haltNow).saveTask wSwap.task.tid .ready 0).emptySlot 0).isSome = true ∧ wSwapped.areaWaits tNext = false ∧ (wSwapped.readArea tNext).ok = true := by
  and_intros <;> first | decide +kernel | exact canonical_of (by decide +kernel) | exact emptySlot_isSome (by decide +kernel)
theorem witness_YieldSwapTurns_out : NothingOut wSwap wSwap.task := by
  simp only [NothingOut]; decide +kernel
/-- A data error that is due at a halt; the way to the core, and the area there, of a restore. -/
theorem witness_ContextMoves_more : ({ w0.task with dataErr := some (0x1001000, 5, 0x2000000) } : Task).dataErr = some (0x1001000, 5, 0x2000000) ∧
    (other tSaved).route 1 0 (8 / 2304) = true ∧ (other tSaved).areaWaits tSaved 8 = false ∧
    (wReady.setCore 8 { wReady.core 8 with ready := [] }).areaWaits tReady = false := by
  and_intros <;> decide +kernel
/-- The first line of the context area at 0xFFFFFFFBFFC0 can be reached, the others, and the one at 0x1000000104E40, cannot. -/
theorem witness_MigrateContext :
    let t : Task := { tSaved with ctxa := 0xFFFFFFFBFFC0 }
    let s := reg (top (other t)) [(1, 0xFFFFFFFBFFC0), (2, 0xFFFFFFFFFFFFFFFF), (3, 8)]
    Canonical s ∧ s.srcA oTask = .ok 0xFFFFFFFBFFC0 ∧ s.srcB oTask = .ok 0xFFFFFFFFFFFFFFFF ∧ s.srcB { oTask with b := 3 } = .ok 8 ∧
    (0xFFFFFFFBFFC0 : Word).toNat % 64 = 0 ∧ s.areaAt 0xFFFFFFFBFFC0 s.task = false ∧ s.task.tid ≠ t.tid ∧ t.wait = .none ∧ t.dataErr = none ∧
    s.headerState t = t.cstate.code ∧
    s.others.find? (fun t => s.areaAt 0xFFFFFFFBFFC0 t && t.tenant == s.task.tenant && t.cstate != .free) = some t ∧ s.linked (t.core / 2304) = true ∧
    s.headerPa t = some 0x2000FC0 ∧ s.ownCore 1 8 = true ∧ restoreTarget t (s.readArea t) 8 = 8 ∧ s.linked (8 / 2304) = true ∧ (s.readArea t 8).ok = true ∧
    (s.readArea t 8).word2.getLsbD 19 = false ∧ (s.freeSlot 8).isSome = true ∧ t.oldCore = none ∧
    s.areaAt 0x1000000104E40 s.task = false ∧ (∀ u, u ∈ s.others → s.areaAt 0x1000000104E40 u = false) ∧ (0x104E01 : Word).toNat % 64 ≠ 0 := by
  and_intros <;> first | decide +kernel | exact canonical_of (by decide +kernel) | exact ok_of (by decide +kernel) | exact freeSlot_isSome (by decide +kernel) (by decide +kernel)
theorem witness_MigrateContext_out : let t : Task := { tSaved with ctxa := 0xFFFFFFFBFFC0 }
    NothingOut (top (other t)) t ∧ (top (other t)).areaWaits t 8 = false := by
  simp only [NothingOut]; decide +kernel
/-- The paddock's dump area: one slot, on a page of 1 GiB. -/
def wDump : State :=
  let t : Task := { tOther with cstate := .dumped, dump := some { ecause := 0x8E, epc := 0x100 } }
  let p : Paddock := { wPad with dumpQueue := [t.tid], cfg := { wPad.cfg with dumpBase := 0x8000000000, dumpBytes := 0x5000 } }
  { big (other t) 0x6000000000000003 with paddocks := [p] }
theorem witness_FatalErrorsDump :
    (other tOther).task.tid ≠ 0 ∧ tOther.tid ≠ 0 ∧ tOther.cstate ≠ .free ∧ tOther.cstate ≠ .dumped ∧ Canonical wDump ∧
    (∃ p, wDump.paddock tOther.tenant = some p ∧ p.dumpQueue = [tOther.tid] ∧ wDump.dumpFree p p.dumpSlot = true) ∧
    wDump.delivering tOther.tid = false ∧ (wDump.settle tOther.tid).settled tOther.tid = true ∧
    (wDump.settle tOther.tid).postRoom tOther.tenant = true := by
  and_intros <;> first | decide +kernel | exact canonical_of (by decide +kernel)
def wDumped : State := (wDump.settle tOther.tid).modTask tOther.tid fun t => { t with streams := t.streams.map Stream.discard }
theorem wDumped_eq : wDumped = wDump := by decide +kernel
theorem mapM_any {f : Nat → Option Nat} {p : Nat → Bool} : ∀ l : List Nat, l.all (fun k => (f k).any p) = true →
    (l.mapM f).any (fun r => r.all p && r.length == l.length) = true
  | [], _ => by simp
  | k :: l, h => by
    simp only [List.all_cons, Bool.and_eq_true] at h
    have ih := mapM_any l h.2
    obtain ⟨x, hx⟩ := Option.isSome_iff_exists.mp (Option.isSome_of_any h.1)
    obtain ⟨r, hr⟩ := Option.isSome_iff_exists.mp (Option.isSome_of_any ih)
    simp_all
/-- Is line k of the slot reached? -/
def dumpLine (k : Nat) : Bool :=
  match wDump.paddock tOther.tenant with
  | none => false
  | some p => (wDump.agentLoc { core := tOther.core, aspace := p.cfg.aspace, sup := true, tenant := p.cfg.tenant } { w := true }
      (p.cfg.dumpBase + BitVec.ofNat 64 (0x5000 * p.dumpSlot + 64 * k))).any (· % 64 == 0)
theorem dumpLines0 : (List.range' 0 40).all dumpLine = true := by decide +kernel
theorem dumpLines1 : (List.range' 40 40).all dumpLine = true := by decide +kernel
theorem dumpLines2 : (List.range' 80 40).all dumpLine = true := by decide +kernel
theorem dumpLines3 : (List.range' 120 40).all dumpLine = true := by decide +kernel
theorem dumpLines4 : (List.range' 160 40).all dumpLine = true := by decide +kernel
theorem dumpLines5 : (List.range' 200 40).all dumpLine = true := by decide +kernel
theorem dumpLines6 : (List.range' 240 40).all dumpLine = true := by decide +kernel
theorem dumpLines7 : (List.range' 280 40).all dumpLine = true := by decide +kernel
theorem dumpLines_all : (List.range (0x5000 / 64)).all dumpLine = true := by
  rw [show List.range (0x5000 / 64) = List.range' 0 40 ++ List.range' 40 40 ++ List.range' 80 40 ++ List.range' 120 40 ++ List.range' 160 40 ++
    List.range' 200 40 ++ List.range' 240 40 ++ List.range' 280 40 by decide +kernel]
  simp only [List.all_append, dumpLines0, dumpLines1, dumpLines2, dumpLines3, dumpLines4, dumpLines5, dumpLines6, dumpLines7, Bool.and_self]
theorem witness_DumpSlot : (wDumped.findTask tOther.tid).any (fun t => t.groups.isEmpty && t.dump.isSome) = true ∧
    (wDump.findTask tOther.tid).any wDump.mayLeave = true ∧
    (wDumped.paddock tOther.tenant).any (fun q => (wDumped.dumpPas q tOther.core q.dumpSlot).any fun l => l.all (· % 64 == 0) && l.length == 320) = true := by
  refine ⟨by decide +kernel, by decide +kernel, ?_⟩
  have h := dumpLines_all
  rw [wDumped_eq]
  cases hp : wDump.paddock tOther.tenant with
  | none => exact absurd hp (by decide +kernel)
  | some q =>
    have hf : dumpLine = fun k => (wDump.agentLoc { core := tOther.core, aspace := q.cfg.aspace, sup := true, tenant := q.cfg.tenant } { w := true }
        (q.cfg.dumpBase + BitVec.ofNat 64 (0x5000 * q.dumpSlot + 64 * k))).any (· % 64 == 0) := by funext k; simp only [dumpLine, hp]
    rw [hf] at h
    have := mapM_any _ h
    simpa [State.dumpPas] using this

def oCsr (n : BitVec 18) : Ops := { len := .w1, d := 9, a := 1, imm := n }
theorem witness_StatusRegisters :
    regOf 0x0FF = none ∧ (∃ r, regOf 0x003 = some r ∧ r.supRead = true) ∧ (∃ r, regOf 0x010 = some r ∧ r.supRead = false) ∧
    (user w0).task.sup = false ∧ w0.task.sup = true ∧ w0.srcA (oCsr 0x002) = .ok 0 ∧ (oCsr 0x002).imm.setWidth 12 = (0x002 : BitVec 12) := by
  and_intros <;> decide +kernel
/-- Values for each register that meet what its event asks: pool sizes, flags set or clear, entries free or taken. -/
theorem witness_RegisterWrites :
    lsplitLegal (w0.cluster 0).vpool 0 0x0102 = true ∧ ((0x0008 : Word).extractLsb' 0 4).toNat ≤ 8 ∧ (∀ i, i < 8 → (0x0008 : Word).getLsbD (8 + i) = false) ∧
    (∀ c, c ∈ w0.clusters → ∀ j, j ∈ c.2.live → ¬ (j.mma = true ∧ j.tid = w0.task.tid)) ∧ (∀ n, n < 4 → (w0.task.port (BitVec.ofNat 2 n)).queue = []) ∧
    (∀ n, n < 4 → w0.sending (BitVec.ofNat 2 n) = false) ∧ (∀ w, w ∈ (w0.core 0).inbound ++ (w0.core 0).held → w0.task.takes w = false) ∧
    (0x800005FFFFFF0020 : Word).getLsbD 63 = true ∧ rankPkg 0x800005FFFFFF0020 = 0xFFF ∧
    ((w0.core 0).ranks.filter fun e => rankOf e != rankOf 0x800005FFFFFF0020).length < 1024 ∧
    ((w0.cluster 0).capt[0]).getLsbD 63 = false ∧ (0x0000001000000002 : Word).extractLsb' 48 16 = 0 ∧
    (0x0000001000000002 : Word).extractLsb' 36 12 = w0.task.tenant ∧ w0.findTask 0x001000000099 = none ∧ (0x80 : Word).getLsbD 3 = false := by
  decide +kernel
theorem witness_PageResume :
    let p : Paddock := { wPad with vfs := [(0, { paging := [{ seq := 3, asid := 1, page := 4, tids := [] }] })] }
    ({ w0 with paddocks := [p] } : State).paddock w0.task.tenant = some p ∧ p.cfg.tenant = w0.task.tenant ∧
    (p.vf ((3 : Word).extractLsb' 32 6).toNat).paging.find? (·.seq == (3 : Word).setWidth 32) = some { seq := 3, asid := 1, page := 4, tids := [] } := by
  and_intros <;> decide +kernel
theorem witness_DebugRestore :
    let t : Task := { tSaved with target := 8 }
    let s := other t
    Canonical s ∧ s.task.cstate = .running ∧ s.task.sup = true ∧ t.tid ≠ s.task.tid ∧ t.tenant = s.task.tenant ∧ t.saved.isSome = true ∧
    (s.readArea t).word2.getLsbD 19 = false ∧ s.linked (t.target / 2304) = true ∧ t.oldCore = none ∧ s.paddock 1 = some wPad ∧
    (s.readArea t).ok = true ∧ (s.readArea t).word3 = BitVec.ofNat 64 t.target ∧ wPad.hasCore 8 = true ∧ (s.freeSlot 8).isSome = true := by
  and_intros <;> first | decide +kernel | exact canonical_of (by decide +kernel) | exact freeSlot_isSome (by decide +kernel) (by decide +kernel)

theorem witness_DebugRestore_area : let t : Task := { tSaved with target := 8 }
    (other t).areaWaits t 8 = false ∧ ((other t).readArea t 8).ok = true ∧ ((other t).readArea t 8).word2.getLsbD 19 = false := by
  and_intros <;> decide +kernel
/-! Mailboxes: the record at 0x1001040, the mailbox at 0x1001000 or on the page of directory mode. -/

def wBox : State :=
  mem (reg w0 [(1, 0x1001000), (2, 0x1001040)]) 0x2000040 64 (0x1000000 + 7 * 2 ^ 64 + 0x1005000 * 2 ^ 256 + 2 ^ 380 + 0x110000 * 2 ^ 384)
def mBox : Mailbox :=
  { pa := 0x2000000, va := 0x1001000, index := 0, record := BitVec.ofNat 512 (0x1000000 + 0x110000 * 2 ^ 384), tid := 0x001000000001, tvec := 0x2001,
    aspace := 0x1001, pending := [{ line := 77, stamp := 0, arrival := 0, src := none }] }
theorem witness_Mailboxes : Canonical wBox ∧ wBox.srcA oTask = .ok 0x1001000 ∧ wBox.srcB oTask = .ok 0x1001040 ∧
    wBox.access { r := true, home := true } 0x1001000 = .ok (.phys 0x2000000 0x6000000002000003) ∧
    wBox.notHaltered (.phys 0x2000000 0x6000000002000003) = .ok () ∧ wBox.load {} 0x1001040 64 64 = .ok (wBox.mem.read 0x2000040 64) ∧
    dirPage 0x6000000002000003 = true ∧ (spawnRecord (BitVec.ofNat 512 (wBox.mem.read 0x2000040 64))).allowed true = true ∧
    wBox.recordLegal (spawnRecord (BitVec.ofNat 512 (wBox.mem.read 0x2000040 64))) 1 = true ∧ wBox.mailboxes = [] ∧
    wBox.mailFree 0x2000000 (.task wBox.task.tid) = true ∧ ({ wBox with mailboxes := [mBox] } : State).mailFree 0x2000000 (.task wBox.task.tid) = false ∧
    wBox.access { w := true, home := true } 0x1001000 = .ok (.phys 0x2000000 0x6000000002000003) ∧
    wBox.notHaltered (.phys 0x2000000 0x6000000002000003) = .ok () ∧ (wBox.markRange wBox.task.tid wBox.task.die 0x2000000 64).isSome = true ∧
    (∃ m, ({ wBox with mailboxes := [mBox] } : State).mailbox 0x2000000 = some m ∧ m.pending ≠ []) ∧
    ({ wBox with mailboxes := [mBox] } : State).hasRoom (spawnRecord mBox.record).core = true := by
  and_intros <;> first | decide +kernel | exact canonical_of (by decide +kernel) | exact ok_of (by decide +kernel) | exact hasRoom_of (by decide +kernel)
/-- The way from the mailbox's home to the core of its record. -/
theorem witness_Mailboxes_way : wBox.route 1 (wBox.homeDie 0x2000000) ((spawnRecord mBox.record).core / 2304) = true := by decide +kernel
theorem witness_freeBinding : (wBox.freeBinding 0x2000000).isSome = true := by
  rw [State.freeBinding, if_pos (by decide +kernel)]
  exact choose_isSome _ (by decide +kernel)

/-! A ring of four slots with its header at 0x1001000: three are published in `wRing 4 1`, none in `wRing 1 1`. -/

def wRing (wp rp : Nat) : State :=
  mem (reg w0 [(1, 0x1001000), (2, 1)]) 0x2000000 64 (wp + rp * 2 ^ 64 + 0x1001400 * 2 ^ 128 + 4 * 2 ^ 192 + 64 * 2 ^ 224)
theorem witness_RingsAndFaultQueues : Canonical (wRing 4 1) ∧ (wRing 4 1).srcA oTask = .ok 0x1001000 ∧ (wRing 4 1).srcB oTask = .ok 1 ∧
    (wRing 4 1).access { r := true, w := true, home := true } 0x1001000 = .ok (.phys 0x2000000 0x6000000002000003) ∧
    (wRing 4 1).notHaltered (.phys 0x2000000 0x6000000002000003) = .ok () ∧ ((wRing 4 1).ringAt 0x2000000).legal = true ∧
    ((1 : Int) ≤ 4 - ((4 : Int) - 1)) ∧ ((1 : Int) > 4 - ((5 : Int) - 1)) ∧ (1 : Int) ≤ 4 - 1 ∧ (wRing 4 1).isCode 0x2000000 = false ∧
    (wRing 4 1).isCode 0x2000008 = false ∧ (wRing 4 1).mem.read 0x2000020 8 = 0 := by
  and_intros <;> first | decide +kernel | exact canonical_of (by decide +kernel)
theorem witness_Rings_sound : (wRing 4 1).poisoned 0x2000000 64 = false := by decide +kernel
theorem witness_FaultQueue :
    let p : Paddock := { wPad with vfs := [(2, { header := 0x1001000, buffer := [77] })] }
    let s : State := { wRing 4 1 with paddocks := [p], links := (wRing 4 1).links.set 4 { state := .up } }
    canonicalB s = true ∧ (p.vf 2).buffer = 77 :: [] ∧ s.hostLinkUp = true ∧ (s.ringPut (p.vfWho 2) (p.vf 2).header 77).isSome = true ∧
    s.agentLoc (p.vfWho 2) { r := true, w := true } 0x1001000 = some 0x2000000 ∧ s.agentLoc (p.vfWho 2) { w := true } 0x1001400 = some 0x2000400 := by
  decide +kernel

/-! A copy of one FP32 element from 0x1001200 to 0x1001300 as BF16, with CMPL 0 or at 0x1002000; and a CPYM to one receiver. -/

def copyBits (cmpl : Nat) : Nat :=
  0x1001200 + 0x1001300 * 2 ^ 64 + 64 * 2 ^ 128 + 64 * 2 ^ 160 + 2 ^ 192 + 2 ^ 224 + 8 * 2 ^ 320 + 8 * 2 ^ 352 +
    Fmt.fp32.code.toNat * 2 ^ 420 + Fmt.bf16.code.toNat * 2 ^ 425 + cmpl * 2 ^ 512
def wCopy : State := mem (reg w0 [(1, 0x1001000)]) 0x2000000 128 (copyBits 0)
def cOne (cmpl : Nat) : Copy := { desc := BitVec.ofNat 1024 (copyBits cmpl), descVa := 0x1001000, multi := false, tid := 0x001000000001, aspace := 0x1001, core := 0, sup := true, rcv := [], codes := [] }
/-- A unit with one command whose window has still to run. -/
def wUnit (c : Copy) : State := wCopy.setCluster 0 { copies := [c] }
def cWindow : CopyWindow := { rcv := 0, base := 0x1001300 }
theorem witness_CopyCommands : Canonical wCopy ∧ wCopy.srcA oTask = .ok 0x1001000 ∧ (w0.cluster 0).copies.length < 16 ∧
    (∃ c, wCopy.copyCommand 0x1001000 false = .ok c ∧ c.multi = false) ∧
    (let c := { cOne 0 with windows := [cWindow] }
     let s := wUnit c
     s.copyAt 0 0 = some c ∧ c.window 0 = some cWindow ∧ cWindow.parked = none ∧ cWindow.row = 0 ∧ cWindow.col = 0 ∧ s.copyOn 0 0 = true ∧
     c.nrow = 1 ∧ c.ncol = 1 ∧ c.dfmt.isBlock = false ∧ fmtBits c.dfmt ≠ 4 ∧ (∃ x, s.copyValue c cWindow.base 0 0 = .ok x) ∧
     s.copyLoc c.who { w := true } cWindow.base 2 = .ok (.phys 0x2000300 0x6000000002000003) ∧
     (s.markRange c.tid c.who.die 0x2000300 2).isSome = true ∧ c.cmpl = 0 ∧ c.mbox = 0) ∧
    (let c := { cOne 0x1002000 with bodyDone := true }
     let s := wUnit c
     c.cmpl ≠ 0 ∧ c.cmpl.toNat % 8 = 0 ∧ s.copyOn 0 0 = true ∧
     s.check c.who { r := true, w := true, ctr := .require } 0x1002000 = .ok (.phys 0x2001000 0x7000000002001003) ∧
     s.mem.read 0x2001000 8 + c.windowBytes < 2 ^ 64 ∧ (s.poke 0x2001000 8 c.windowBytes).parties (0x2001000 / 64 * 64) = 0) ∧
    (let w := { cWindow with parked := some 0x1001200, filled := true }; w.filled = true ∧ w ∈ ({ cOne 0 with windows := [w] } : Copy).windows) := by
  and_intros <;> first | decide +kernel | exact canonical_of (by decide +kernel) | exact ok_of (by decide +kernel) | exact okEx_of (by decide +kernel) | exact okAnd_of (by decide +kernel)
theorem witness_CopyReceiver :
    let s := mem wCopy 0x2000800 64 (1 + 0 * 2 ^ 64 + 0x1001400 * 2 ^ 128 + 4 * 2 ^ 192 + 64 * 2 ^ 224)
    let c : Copy := { cOne 0 with multi := true, rcv := [0x1001800], codes := [0] }
    c.window 0 = none ∧ c.served.contains 0 = false ∧
    (∃ g, s.receiverRing c 0x1001800 = .ok g ∧ c.slotBytes ≤ g.1.slotb ∧ 1 ≤ (g.1.nslot : Int) - ((g.1.wp : Int) - g.2)) ∧
    (s.copyRun c { rcv := 0, base := 0x1001440 } (c.nrow * c.ncol)).2.2.2.isNone = true := by
  and_intros <;> first | decide +kernel | exact ok_of (by decide +kernel) | exact okEx_of (by decide +kernel) | exact okAnd_of (by decide +kernel)
/-- The slot that the receiver takes is no other window's, and the run of the whole command from it ends. -/
theorem witness_CopyReceiver_run :
    let s := mem wCopy 0x2000800 64 (1 + 0 * 2 ^ 64 + 0x1001400 * 2 ^ 128 + 4 * 2 ^ 192 + 64 * 2 ^ 224)
    let c : Copy := { cOne 0 with multi := true, rcv := [0x1001800], codes := [0] }
    let u := s.setCluster 0 { copies := [c] }
    u.copyAt 0 0 = some c ∧ c.bodyDone = false ∧ 0 < c.rcv.length ∧ u.copyOn 0 0 = true ∧ u.ringTaken 0 0 0 0x2000800 = false ∧
    (∃ g, u.receiverRing { c with grant := none } 0x1001800 = .ok g ∧ g.1.pa = 0x2000800) ∧
    (u.copyRun c { rcv := 0, base := 0x1001440, ring := some 0x2000800 } (c.nrow * c.ncol)).2.2.2.isNone = true := by
  and_intros <;> first | decide +kernel | exact okAnd_of (by decide +kernel)
theorem witness_CopyMulti : let s := mem (mem wCopy 0x2000000 128 (copyBits 0 + 0x1001600 * 2 ^ 832)) 0x2000600 8 0x1001800
    ∃ c, s.copyCommand 0x1001000 true = .ok c ∧ c.multi = true ∧ c.rcv = [0x1001800] := okAnd_of (by decide +kernel)
/-- A store of a stream's sink that has waited 65,536 clks to mark its line. -/
theorem witness_GroomRecord : let r : Stream := { state := .sinking, desc := dSum, markWait := some (lineOf 0x2000800, 4464, false) }
    let t : Task := { tOther with streams := tOther.streams.set 1 r }
    (other t).paddock (t.tid.extractLsb' 36 12) = some wPad ∧ (other t).postRoom (t.tid.extractLsb' 36 12) = true ∧
    (t.stream 1).markWait = some (lineOf 0x2000800, 4464, false) ∧ 4464 + 65536 ≤ (other t).clk := by decide +kernel


/-! Counters on the counter page (0x1002000): one that holds `v`; a barrier record; a task that waits for 5. -/

def wCtr (v : Nat) : State := mem (reg w0 [(1, 0x1002000), (2, 5), (3, 0)]) 0x2001000 8 v
def oCtr : Ops := { len := .w1, d := 9, a := 1, b := 2 }
theorem witness_CounterAdds : Canonical (wCtr 7) ∧ (wCtr 7).srcA oCtr = .ok 0x1002000 ∧ (wCtr 7).srcBL oCtr = .ok 5 ∧
    (wCtr 7).counterLoc { w := true } 0x1002000 8 = .ok 0x2001000 ∧ 7 + 5 < 2 ^ 64 ∧ NoRecord (wCtr 7) 0x2001000 12 ∧
    (wCtr (2 ^ 64 - 5)).mem.read 0x2001000 8 + 5 = 2 ^ 64 ∧ (wCtr 7).task.sup = true ∧ 0x2001000 < 2 ^ 39 ∧ 0x2001000 % 8 = 0 ∧
    ((wCtr 7).stack (0x2001000 / 2 ^ 35 % 16)).inTransit = false ∧ NoRecord (wCtr 7) 0x2001000 (2 ^ 64 - 1) ∧ (wCtr 7).paddock 1 = some wPad ∧
    (other { tOther with wait := .counter 0x2001000 5 none false }).findTask tOther.tid = some { tOther with wait := .counter 0x2001000 5 none false } := by
  and_intros <;> first | decide +kernel | exact canonical_of (by decide +kernel) | exact ok_of (by decide +kernel) | exact find_me _ | exact find_other _ rfl | (unfold NoRecord; decide +kernel)
/-- A sound counter; an agent's add that a stack in transit holds, and one that would saturate while the fault queue is full. -/
theorem witness_CounterAdds_held : (wCtr 7).poisoned 0x2001000 8 = false ∧
    (((wCtr 7).setStack 0 { state := .handing, step := 1 }).stack (0x2001000 / 2 ^ 35 % 16)).inTransit = true ∧
    (let s : State := { wCtr (2 ^ 64 - 1) with paddocks := [{ wPad with vfs := [(0, { buffer := List.replicate 64 0 })] }] }
     2 ^ 64 ≤ s.mem.read 0x2001000 8 + 5 ∧ s.addTenant 0x2001000 0 = 1 ∧ s.postRoom (s.addTenant 0x2001000 0) = false) ∧
    (wCtr 7).postRoom ((wCtr 7).addTenant 0x2001000 0x001000000001) = true := by
  and_intros <;> decide +kernel
theorem witness_CounterWaits : (wCtr 5).metValue = none ∧ (wCtr 5).counterLoc {} 0x1002000 8 = .ok 0x2001000 ∧
    (wCtr 5).mem.read 0x2001000 8 = 5 ∧ (wCtr 4).mem.read 0x2001000 8 < 5 ∧ (wCtr 4).waitSlots 0x2001000 < 64 ∧
    (wCtr 5).counterLoc {} 0x1002000 64 = .ok 0x2001000 ∧
    64 ≤ ({ wCtr 4 with others := (List.range 64).map fun n =>
      { tOther with tid := BitVec.ofNat 48 (n + 9), wait := .counter 0x2001000 9 none true } } : State).waitSlots 0x2001000 ∧
    (wCtr 4).waitSlots 0x2001020 < 64 ∧ oCtr.x.pd = false ∧ (bound w0).task.port 1 = ({ (bound w0).task.port 1 with pb := 0x8100000500000000 } : Port) ∧
    (wCtr 5).srcBL oCtr = .ok 5 ∧ (wCtr 5).srcA oCtr = .ok 0x1002000 ∧ (wCtr 5).mem.read 0x2001030 4 = 0 ∧ Canonical (wCtr 5) ∧
    ((wCtr 5).setTask { (wCtr 5).task with wait := .counter 0x2001000 5 (some 6) false }).metValue = some (0x2001000, 6) ∧
    (wCtr 5).poisoned 0x2001000 8 = false ∧ (wCtr 5).poisoned 0x2001020 8 = false ∧
    ({ wCtr 5 with poison := [(0x2001000 / 64, true)] } : State).poisoned 0x2001000 8 = true ∧
    ({ wCtr 5 with poison := [(0x2001000 / 64, true)] } : State).poisoned 0x2001020 8 = true := by
  and_intros <;> first | decide +kernel | exact canonical_of (by decide +kernel)
/-- A record with ARR, DA, TA, TB, PH, NB, PARTIES and the group's address. -/
def wBar (arr da ta tb ph nb parties : Nat) : State :=
  mem (wCtr 0) 0x2001000 64 (arr + da * 2 ^ 64 + ta * 2 ^ 128 + tb * 2 ^ 192 + ph * 2 ^ 256 + nb * 2 ^ 320 + parties * 2 ^ 384)
def oBar : Ops := { len := .w2, d := 9, a := 1, b := 2, x := { c := 3 } }
theorem witness_BarrierPhases : (wBar 0 0 0 0 0 0 0).counterLoc { w := true } 0x1002000 64 = .ok 0x2001000 ∧ (wBar 0 0 0 0 0 0 0).mem.read 0x2001030 4 = 0 ∧
    (wBar 0 0 0 0 0 0 0).srcBL oBar = .ok 5 ∧ (wBar 1 0 3 0 0 0 3).mem.read 0x2001030 4 = 3 ∧ (wBar 1 0 3 0 0 0 3).srcC oBar = .ok 0 ∧
    (let s := wBar 1 0 3 0 0 0 3; s.mem.read 0x2001000 8 < s.mem.read 0x2001010 8 ∧ s.mem.read 0x2001000 8 + 1 < s.mem.read 0x2001010 8 ∧
      s.mem.read 0x2001020 8 = 0 ∧ s.mem.read 0x2001018 8 + 5 < 2 ^ 64 ∧ s.mem.read 0x2001028 8 + 5 < 2 ^ 64) ∧
    (wBar 1 0 3 0 2 0 3).mem.read 0x2001020 8 = 2 ∧ (reg (wBar 1 0 3 0 0 0 3) [(3, 1)]).srcC oBar = .ok 1 ∧
    (reg (wBar 1 0 3 0 0 0 3) [(3, 2)]).srcC oBar = .ok 2 ∧ Canonical (wBar 1 0 3 0 0 0 3) ∧ (wBar 1 0 3 0 0 0 3).srcA oBar = .ok 0x1002000 := by
  and_intros <;> first | decide +kernel | exact canonical_of (by decide +kernel)
/-- An arrival that completes the phase, of fixed parties (W7 is 0) and of the members of an active group. -/
theorem witness_BarrierPhases_last :
    (let s := wBar 2 4 3 4 0 1 3; s.mem.read 0x2001000 8 + 1 = s.mem.read 0x2001010 8 ∧ s.mem.read 0x2001018 8 ≤ s.mem.read 0x2001008 8 ∧
      s.mem.read 0x2001038 8 = 0) ∧
    (let s : State := { mem (wBar 2 4 3 4 0 1 1) 0x2001038 8 0x2000000 with groupTab := [{ pa := 0x2000000, ver := 9, maxm := 2, members := [(1, 5), (2, 6)] }] }
     (s.groupAt (s.mem.read 0x2001038 8)).isSome = true ∧ s.censusCount 0x2000000 = 2) ∧
    dirPage 0x6000000002000003 = true ∧
    (reg (wBar 0 0 0 0 0 0 0) [(2, 0x1001000)]).access { r := true, home := true, ctr := .allow } 0x1001000 = .ok (.phys 0x2000000 0x6000000002000003) := by
  and_intros <;> decide +kernel

theorem witness_BarrierPhases_sound : (wBar 1 0 3 0 0 0 3).poisoned 0x2001000 64 = false := by decide +kernel
/-! A group at 0x1001000: idle with MAXM 2 in its header, or active with members. -/

def wGroup (maxm : Nat) (l : List Group) : State := { mem (reg w0 [(1, 0x1001000), (2, 0)]) 0x2000000 8 (maxm * 2 ^ 16) with groupTab := l }
def me : Tid := 0x001000000001
def gOne (ms : List (BitVec 48 × Word)) : Group := { pa := 0x2000000, ver := 9, maxm := 2, members := ms }
theorem witness_GroupMembership : Canonical (wGroup 2 []) ∧ (wGroup 2 []).srcA oCtr = .ok 0x1001000 ∧ (0x1001000 : Word).toNat % 64 = 0 ∧
    (wGroup 2 []).groupLoc { w := true } 0x1001000 = .ok 0x2000000 ∧ (wGroup 2 []).groupAt 0x2000000 = none ∧
    ((wGroup 2 []).census 0x2000000).extractLsb' 16 16 = 2 ∧ ((wGroup 2 []).census 0x2000000).extractLsb' 0 16 = 0 ∧ (wGroup 2 []).groupEntries 0x2000000 < 16 ∧
    ((wGroup 0 []).census 0x2000000).extractLsb' 16 16 = 0 ∧ (wGroup 2 [gOne [(me, 5)]]).groupAt 0x2000000 = some (gOne [(me, 5)]) ∧
    (gOne [(me, 5)]).members.findIdx? (·.1 == me) = some 0 ∧ (gOne [(2, 5)]).members.findIdx? (·.1 == me) = none ∧
    (gOne [(2, 5)]).members.length < (gOne []).maxm.toNat ∧ (gOne []).maxm.toNat ≤ (gOne [(2, 5), (3, 6)]).members.length ∧ (wGroup 2 []).task.groups.length < 4 ∧
    4 ≤ ({ (wGroup 2 []).task with groups := [1, 2, 3, 4] } : Task).groups.length ∧ (wGroup 2 []).srcB oCtr = .ok 0 ∧
    16 ≤ (wGroup 2 ((List.range 16).map fun n => { gOne [] with pa := 0x2000000 + 64 * 160 * (n + 1) })).groupEntries 0x2000000 ∧
    (wGroup 2 []).counterLoc { w := true } 0x1002000 8 = .ok 0x2001000 ∧ NoRecord (wGroup 2 []) 0x2001000 1 ∧
    (reg (wGroup 2 [gOne [(me, 5)]]) [(2, 0x1002000)]).srcB oCtr = .ok 0x1002000 ∧ 0x2000000 + 80 + 16 * 0 ≤ 0x2001000 / 64 * 64 ∧
    (wGroup 2 []).mem.read 0x2001000 8 + 1 < 2 ^ 64 := by
  and_intros <;> first | decide +kernel | exact canonical_of (by decide +kernel) | exact ok_of (by decide +kernel) | (unfold NoRecord; decide +kernel)
/-- A sound header; a record under another task's halter; a member that already is in, and an idle group that refuses. -/
theorem witness_GroupMembership_more : (wGroup 2 []).poisoned 0x2000000 8 = false ∧ (wGroup 2 []).groupHaltered me 0x2000000 = false ∧
    (let s : State := { wGroup 2 [gOne [(2, 6)]] with halters := [{ line := 0x2000040 / 64, tid := 9, level := .slice, die := 0 }] }
     s.groupHaltered me 0x2000000 = true ∧ s.groupLoc { w := true } 0x1001000 = .ok 0x2000000) ∧ oCtr.x.pd = false ∧ (wGroup 2 []).srcB { oCtr with b := 0 } = .ok 0 ∧
    (gOne [(2, 5)]).members.findIdx? (·.1 == me) = none := by
  and_intros <;> decide +kernel
theorem witness_GroupReads : (wGroup 2 [gOne [(me, 5), (2, 6)]]).groupLoc {} 0x1001000 = .ok 0x2000000 ∧ (gOne [(me, 5), (2, 6)]).members[1]? = some (2, 6) ∧
    (gOne [(me, 5), (2, 6)]).members.length ≤ 2 ∧ (wGroup 2 []).groupAt 0x2000000 = none ∧ (mem (wGroup 2 []) 0x2000000 8 3).mem.read 0x2000000 8 % 65536 = 3 ∧
    0x2000000 < 2 ^ 39 ∧ 0x2000000 % 64 = 0 ∧ ((wGroup 2 []).stack (0x2000000 / 2 ^ 35 % 16)).inTransit = false ∧ (wGroup 2 []).findTask me = some (wGroup 2 []).task ∧
    (gOne [(2, 6)]).members.findIdx? (·.1 == me) = none ∧ (gOne [(2, 6), (me, 5)]).members.findIdx? (·.1 == me) = some 1 := by
  and_intros <;> decide +kernel
theorem witness_GroupReads_more : let s := mem (wGroup 2 []) 0x2000000 8 3
    s.poisoned 0x2000000 8 = false ∧ s.poisoned (0x2000000 + 64 + 16 * 1) 16 = false ∧ s.haltered s.task.tid ((0x2000000 + 64 + 16 * 1) / 64) = false ∧
    s.groupHaltered me 0x2000000 = false ∧ s.srcB oCtr = .ok 0 ∧ s.srcA oCtr = .ok 0x1001000 := by
  and_intros <;> decide +kernel
theorem witness_TranslationInstructions : (reg w0 [(1, 0x1001000), (2, 1)]).srcA oCtr = .ok 0x1001000 ∧ (reg w0 [(1, 0x1001000), (2, 1)]).srcB oCtr = .ok 1 ∧
    (0x1001000 : Word).toNat < 2 ^ 39 ∧ (0xFFFFFFFFFFFF : Word).toNat < 2 ^ 48 ∧ 2 ^ 48 ≤ (0x1000000000000 : Word).toNat ∧ 2 ^ 39 ≤ (0x8000000000 : Word).toNat ∧
    w0.check w0.task.who { r := true, ctr := .allow } 0x1001000 = .ok (.phys 0x2000000 0x6000000002000003) ∧
    w0.check w0.task.who { x := true } 0x1001000 = .error .permission ∧ w0.check w0.task.who { w := true } 0x1F00000 = .error (.translation 1) ∧
    (0x8000000000000000 : Word).getLsbD 63 = true ∧ w0.task.aspace.extractLsb' 52 12 = (0x8000000000000000 : Word).setWidth 12 ∧ w0.task.sup = true ∧ w0.task.granted = none ∧
    w0.check w0.task.who { r := true, ctr := .allow } 0xFFFFFFFC0000 = .ok (.scratch 0) := by
  and_intros <;> decide +kernel
/-- Paddock 1 with one demand-paging record of task 2, in whose area it lies parked. -/
def rPaging : Paging := { seq := 3, asid := 1, page := 0x1004, tids := [tOther.tid] }
def pPaging : Paddock := { wPad with vfs := [(2, { paging := [rPaging] })] }
def tParked : Task := { tOther with cstate := .parked, parked := true }
def wPaging : State := { other tParked with paddocks := [pPaging], links := w0.links.set 4 { state := .up } }
theorem witness_PagingEvents :
    w0.paddocks.find? (·.hasCore 0) = some wPad ∧ (0x1001000 : Word).toNat < scratchBase ∧
    w0.walk (wPad.feat.getLsbD 1) { core := 0, aspace := 0x1001, sup := true, tenant := wPad.cfg.tenant } 0x1001000 = .leaf 0x6000000002000003 4 12 ∧
    ({ w0 with codeBits := [(0x2000, true)] } : State).isCode 0x2000040 = true ∧
    (w0.marks.filter fun m => m.line != 0x2000040 / 64 && m.die == some 0 && m.line % 160 == 0x2000040 / 64 % 160).length < 1024 ∧
    w0.check w0.task.who (wantOf 3) 0x1004000 = .error (.paging 4) ∧ (wPad.vf wPad.ownVf).paging = [] ∧ w0.postRoom w0.task.tenant = true ∧
    w0.task.cstate = .running ∧ w0.task.groups = [] ∧ w0.task.saved = none ∧
    ({ w0 with paddocks := [{ wPad with vfs := [(0, { buffer := List.replicate 64 0 })] }] } : State).pagingRoom 1 (w0.task.aspace.extractLsb' 52 12) 0x1004000 = false := by
  and_intros <;> decide +kernel
theorem witness_PagingEvents_resume : Canonical wPaging ∧ wPaging.doorbell 1 2 true = some pPaging ∧ (pPaging.vf 2).paging = [rPaging] ∧ rPaging.seq = 3 ∧
    rPaging.tids = [tParked.tid] ∧ (pPaging.vf 2).resumes = [] ∧ wPaging.hostPending 1 wPaging.clk = false ∧
    ({ wPaging with hostHeld := [{ pa := 0x2000000, n := 8, write := some [1], since := 5 }] } : State).hostPending 1 wPaging.clk = true ∧ wPaging.findTask tParked.tid = some tParked ∧ tParked.saved = none ∧ tParked.cstate = .parked ∧
    (∀ q ∈ wPaging.paddocks, ∀ e ∈ q.vfs, ∀ x ∈ e.2.paging, x ≠ rPaging → x.tids.contains tParked.tid = false) ∧
    (∀ q ∈ wPaging.paddocks, q = pPaging ∨ q.cfg.tenant ≠ 1) ∧ (∀ e ∈ pPaging.vfs, e.1 ≠ 2 → rPaging ∉ e.2.paging) ∧
    (∀ q ∈ wPaging.paddocks, q ≠ pPaging → ∀ e ∈ q.vfs, rPaging ∉ e.2.paging) := by
  and_intros <;> first | decide +kernel | exact canonical_of (by decide +kernel)
def wStk (a : Word) (k : Stack) : State := (reg w0 [(1, a), (2, 0x1002000)]).setStack 0 k
theorem witness_Stacks : (wStk 0 { tenant := some 1 }).srcA oCtr = .ok 0 ∧ (wStk 0 { tenant := some 1 }).srcB oCtr = .ok 0x1002000 ∧
    (wStk 0 { tenant := some 1 }).assigned 0 1 = true ∧ wPad.onDie 0 = true ∧ wPad.onDie 1 = true ∧ (wStk 0 { tenant := some 1 }).paddock 1 = some wPad ∧
    (wStk 0 { tenant := some 1 }).giveCounter 0x1002000 = .ok 0x2001000 ∧ (wStk 0 { tenant := some 1 }).lacksRoom 0 = false ∧
    ({ wStk 0 { tenant := some 1 } with mailboxes := List.replicate 9 mBox } : State).lacksRoom 0 = true ∧ 15 < (16 : Word).toNat ∧
    (wStk 0 {}).assigned 0 1 = false ∧ w0.halters = [] ∧ w0.heldStill 0 = false ∧ (∀ t ∈ w0.tasks, ∀ n, (t.stream n).station = none) ∧
    (wStk 0 { tenant := some 1 }).task.sup = true ∧ w0.mem.read 0x2001000 8 + 1 < 2 ^ 64 ∧ (∀ t ∈ w0.tasks, t.cstate ≠ .free → ({ owner := 1 } : Stack).reachable t.die = false) ∧
    (let x : Stack := { state := .handing, step := 7, counter := 0x2001000, tenant := some 1 }
     ((wStk 0 x).stack (x.counter / 2 ^ 35 % 16)).inTransit = false) ∧
    NoRecord (wStk 0 {}) 0x2001000 1 ∧ ((wStk 0 { owner := 1 }).stack 0).reachable 0 = false := by
  and_intros <;> first | decide +kernel | exact ok_of (by decide +kernel) | (unfold NoRecord; decide +kernel)
/-- Each state and step of a stack: the hand-over's steps, the end that no held request keeps back, and the offline path. -/
theorem witness_Stacks_steps : let at_ (st : StackSt) (n : BitVec 3) : State := wStk 0 { state := st, step := n, owner := 0, reach := 1, counter := 0x2001000, tenant := some 1 }
    (((at_ .handing 1).stack 0).state = .handing ∧ ((at_ .handing 1).stack 0).step = 1 ∧ (∀ h ∈ (at_ .handing 1).halters, lineOn 0 h.line = false)) ∧
    ((at_ .handing 2).stack 0).step = 2 ∧ ((at_ .handing 3).stack 0).step = 3 ∧ ((at_ .handing 4).stack 0).step = 4 ∧ ((at_ .handing 5).stack 0).step = 5 ∧
    ((at_ .handing 6).stack 0).step = 6 ∧ (((at_ .handing 7).stack 0).step = 7 ∧ (((at_ .handing 7).stack 0).counter / 2 ^ 35 % 16) = 0 ∧
      ((at_ .handing 7).stack 0).inTransit = false ∧ (at_ .handing 7).heldStill 0 = false) ∧
    NoRecord (at_ .handing 7) 0x2001000 1 ∧ ((at_ .offline 0).stack 0).state = .offline ∧ ((at_ .scrubbing 0).stack 0).state = .scrubbing := by
  and_intros <;> first | decide +kernel | (unfold NoRecord; decide +kernel)
theorem witness_PowerIslands :
    let s : State := { w0 with islands := [(0, { state := .run }), (5, { state := .run })], task := {}, others := [] }
    Canonical s ∧ (s.island 0).state = .run ∧ s.islandEmpty 0 = true ∧ ({ s with paddocks := [] } : State).islandUsed 0 = false ∧ (s.island 1).state ≠ .run ∧
    (s.island (islandOf 9215)).state = .hold ∧
    ((s.setCore 9215 { lines := [(4, { present := true, index := 3 })] }).core 9215).lines.any (fun e => e.2.index == 3 && e.2.place != .pool) = true ∧
    (95 : BitVec 7).toNat < 96 ∧ 96 ≤ (96 : BitVec 7).toNat := by
  and_intros <;> first | decide +kernel | exact canonical_of (by decide +kernel)

/-- A link of each state, before and after the two times of R358; the widths that lanes give. -/
def wLinks (l : Link) (clk : Nat) : State := { State.reset with links := State.reset.links.set 0 l, clk := clk }
theorem witness_LinkStates : Canonical (wLinks {} 0) ∧ (∀ l clk, (wLinks l clk).links[(0 : BitVec 5).toNat]'(by decide) = l) ∧ (∀ l clk, (wLinks l clk).clk = clk) ∧
    ({} : Link).state = .down ∧ (let l : Link := { state := .training, since := 5 }; l.state = .training ∧ 9 < l.since + 85000000 ∧ l.since + 85000000 ≤ 85000005) ∧
    (let l : Link := { state := .up, failed := 8, replays := [900000, 50001, 50000] }
     l.state = .up ∧ 8 ≤ l.failed ∧ (l.replays.filter fun c => 900000 < c + 850000) = [900000, 50001]) ∧
    (let l : Link := { state := .degraded, failed := 7, replays := [5] }
     l.state = .degraded ∧ l.failed < 8 ∧ l.retry ≠ 0xFFFFFFFF ∧ (l.replays.filter fun c => 9 < c + 850000).length ≤ 65536) ∧
    (8 ∈ [16, 8] ∧ 8 ≤ (15 : BitVec 5).toNat ∧ ∀ x ∈ [16, 8], x ≤ (15 : BitVec 5).toNat → x ≤ 8) ∧ (7 : BitVec 5).toNat < 8 ∧
    (16 ∈ [16, 8] ∧ 16 ≤ (16 : BitVec 5).toNat ∧ ∀ x ∈ [16, 8], x ≤ (16 : BitVec 5).toNat → x ≤ 16) ∧ 16 ≤ (16 : BitVec 5).toNat := by
  refine ⟨canonical_of (by decide +kernel), fun l clk => ?_, fun _ _ => rfl, ?_⟩
  · simp [wLinks]
  · and_intros <;> decide +kernel
/-- 65,537 replays within the last 1 ms. -/
theorem witness_LinkStates_replays : 65536 < ((List.replicate 65537 9).filter fun c => decide (9 < c + 850000)).length := by
  rw [List.filter_replicate_of_pos (by decide), List.length_replicate]; decide
/-- Core 2 has sent word 3 to package 5 on port 0, and has accepted words 0 to 6 of core 2 there; ports 0 and 1 are up. -/
def wPeer : State :=
  { wPort with
    peerTx := [(2 * 4096 + 5, { next := 4, unacked := [(3, wWord)], port := some 0 })], peerRx := [(2 * 4096 + 6, 7)], routes := [(5, 3)],
    links := (wPort.links.set 5 { state := .up }).set 6 { state := .degraded } }
theorem witness_PeerWords : Canonical wPeer ∧ (smapGet (0 : BitVec 4096) w0.routerBits 3).getLsbD 2 = true ∧
    (smapGet (0 : BitVec 4096) w0.routerBits 9999).getLsbD 1 = false ∧ wPeer.linkUp ((0 : BitVec 4).toNat + 5) = true ∧
    wPeer.linkUp ((2 : BitVec 4).toNat + 5) = false ∧
    (let tx := smapGet {} wPeer.peerTx (2 * 4096 + 5); (3, wWord) ∈ tx.unacked ∧ tx.port = some (0 : BitVec 4).toNat ∧ tx.port ≠ some (1 : BitVec 4).toNat ∧
      tx.unacked ≠ [] ∧ (3, wWord) ∉ (smapGet {} wPeer.peerTx (2 * 4096 + 6)).unacked) ∧
    (smapGet (0 : BitVec 4096) wPeer.admitted (0 : BitVec 4).toNat).getLsbD wWord.tenant.toNat = true ∧
    (smapGet (0 : BitVec 4096) wPeer.admitted (1 : BitVec 4).toNat).getLsbD ({ wWord with tenant := 2 } : PortWord).tenant.toNat = false ∧
    (7 : Nat) = smapGet 0 wPeer.peerRx (2 * 4096 + 6) ∧ (8 : Nat) ≠ smapGet 0 wPeer.peerRx (2 * 4096 + 6) ∧
    (wPeer.arrive 8 { wWord with stamp := wPeer.stamp }).isSome = true ∧ wPeer.outPort 2 5 = some 0 ∧
    ({ wPeer with routes := [(5, 2)] } : State).outPort 2 5 = some 1 ∧ (0 : BitVec 4).toNat < 12 := by
  and_intros <;> first | decide +kernel | exact canonical_of (by decide +kernel)
/-- The arc from a port's die to a word's core, past routers that carry its tenant, and one that is missing; a core of another package's
words whose port changes. -/
theorem witness_PeerWords_way : wPeer.arc (wPeer.dies wWord.tenant) (0 / 3) (8 / 2304) = some [] ∧ wPeer.stopsAt wWord.tenant (portRouters 8 0 []) = none ∧
    (({ wPeer with routerBits := [] } : State).stopsAt wWord.tenant (portRouters 8 0 [])).isSome = true ∧
    wPeer.arc (wPeer.dies wWord.tenant) (3 / 3) (8 / 2304) = none ∧ (3, wWord) ∉ (smapGet {} wPeer.peerTx (2 * 4096 + 6)).unacked := by
  and_intros <;> decide +kernel
/-- Line 0x80000, the one at 0x2000000: directory entries of each kind, L3 states, and what pages map it for core 0. -/
def wLine (e : DirEntry) : State := { w0 with dir := [(0x80000, e)] }
def wL3 (m o : L3State) : State := { w0 with l3 := [(0x200000, m), (0x200001, o)] }
def wMode (leaf : Word) : State := { w0 with tlb := [{ place := 0, asid := 0, va := 0x1001000, bits := 12, leaf := leaf, pa := 0x2000000 }] }
def wStash (s : State) : State := s.setCore 0 { s.core 0 with lsplit := 0x100, stash := (s.core 0).stash.set 0 0x8100000001001000 }
theorem witness_LineStates : Canonical (wLine (.shp [1, 2])) ∧ Canonical (wMode 0x6000000002000003) ∧ w0.dirEntry 0 0x80000 = .inv ∧
    (wLine (.shp [1, 2])).dirEntry 0 0x80000 = .shp [1, 2] ∧ ([1, 2] : List (BitVec 12)).length < 4 ∧ (0 : BitVec 12) ∉ ([1, 2] : List (BitVec 12)) ∧
    (1 : BitVec 12) ∈ ([1, 2] : List (BitVec 12)) ∧ (wLine (.shp [1, 2, 3, 4])).dirEntry 0 0x80000 = .shp [1, 2, 3, 4] ∧
    (wLine (.own 1)).dirEntry 0 0x80000 = .own 1 ∧ (wLine (.own 0)).dirEntry 0 0x80000 = .own 0 ∧ ((wLine (.own 1)).island (islandOf 1)).state = .run ∧
    w0.l3State 0x80000 0 = .I ∧ (wL3 .M .O).l3State 0x80000 0 = .M ∧ (wL3 .M .O).l3State 0x80000 1 = .O ∧ 0x80000 < 2 ^ 33 ∧
    (let s := wMode 0x6000000002000003
     s.served 0 0x80000 = true ∧ s.clocked (0 / 8) = true ∧ (s.mapping 0 0x80000).any (fun x => cachedPage x.leaf && pteMode x.leaf == 0) = true ∧
       s.ways 0 0x80000 ≠ [] ∧ (s.core 0).stashPlace 0 0x1001000 = none ∧ (s.line 0 0x80000).present = false ∧ s.dieCaches 0 0x80000 = true) ∧
    (wMode 0x6000000002000003).served 1 0x80000 = false ∧ (wMode 0x6000000002000003).clocked (8 * 24 / 8) = false ∧ w0.mapping 0 0x80000 = none ∧
    ((wMode 0x6100000000000003).mapping 0 0x80000).any (fun x => cachedPage x.leaf && pteMode x.leaf == 1) = true ∧
    ((wMode 0x6200000000000003).mapping 0 0x80000).any (fun x => !cachedPage x.leaf) = true ∧
    (∀ p, (wMode 0x6000000002000003).paddocks.find? (·.hasCore 0) = some p → p.traceMode = 0) ∧
    ((w0.setCore 1 { lines := [(0x80000, { present := true, excl := true })] }).line 1 0x80000).place ≠ .pool ∧
    (w0.setCore 0 { lsplit := 16 }).ways 0 0x80000 = [] ∧ ((wStash w0).core 0).stashPlace 0 0x1001000 = some (0, 0) ∧ w0.joined 0 0x80000 = true ∧ w0.joined 1 0x80000 = false ∧
    (∀ y < 4, ∀ m ∈ ((wLine (.own 1)).dirEntry y 0x80000).named, m < 2304) := by
  and_intros <;> first | decide +kernel | exact canonical_of (by decide +kernel)
theorem witness_LineStates_owners : ∀ y < 4, ∀ o : BitVec 12, w0.dirEntry y 0x80000 = .own o → o.toNat < 2304 := by
  intro y hy o h
  have : w0.dirEntry y 0x80000 = .inv := rfl
  rw [this] at h; cases h
def wDbg (s : State) (p : Paddock) : State := { s with paddocks := [p] }
def pDbg : Paddock := { wPad with stops := wPad.stops.set 0 0xC000001000000001, dbgctl := 5, cfg := { wPad.cfg with trace := 0x1001000 } }
/-- A stop entry of KIND 2 (BKPT) and one of KIND 3; a consumed message; a monitor of the job queue's occupancy. -/
theorem witness_DebugAndTrace :
    (wDbg w0 pDbg).breakEntry = some 0 ∧ w0.task.cstate = .running ∧ w0.task.saved = none ∧ w0.task.tile = none ∧ pDbg.dbgq = 0 ∧
    NothingOut (noArea w0) (noArea w0).task ∧
    (wDbg w0 { pDbg with stops := wPad.stops.set 0 0xE000001000000001 }).stopNow w0.task = some 0 ∧
    (let c : Core := { consumed := [(5, 1, 2, 3)] }; (5, 1, 2, 3) ∈ c.consumed ∧ c.profile.length < 32 ∧ (∀ e ∈ c.profile, e.key ≠ 5)) ∧
    (let m : Monitor := { cfg := 0x8000000000000002, count := 1, least := 4, most := 4 }; m.cfg.getLsbD 63 = true ∧ 0 < m.count.toNat ∧
      m.count.toNat < 2 ^ 64 - 1 ∧ (m.cfg.extractLsb' 0 4).toNat = 2) ∧
    w0.clocked 0 = true ∧ w0.samples 0 2 0 = true := by
  and_intros <;> decide +kernel
/-- The trace ring of home port 0 at 0x1001000, of four slots of 16 bytes, with two entries to replay. -/
def pTrace (mode : Nat) : Paddock := { pDbg with dbgctl := BitVec.ofNat 64 (mode + 4) }
def wTrace (wp rp mode : Nat) : State :=
  wDbg (mem (mem w0 0x2000000 64 (wp + rp * 2 ^ 64 + 0x1001400 * 2 ^ 128 + 4 * 2 ^ 192 + 16 * 2 ^ 224)) 0x2000400 32
    ((traceEntry 0 3 0x44).toNat + (traceEntry 1 0 0x2000808).toNat * 2 ^ 128)) (pTrace mode)
theorem witness_DebugAndTrace_rings :
    (pTrace 1).traceMode = 1 ∧ (pTrace 2).traceMode = 2 ∧ ((wTrace 1 0 1).traceRing (pTrace 1) 0).any (fun r => decide (r.used < r.nslot)) = true ∧
    ((wTrace 1 0 1).traceRing (pTrace 1) 0).any (fun r => ((wTrace 1 0 1).traceSlot (pTrace 1) 0 r r.wp) == some 0x2000410) = true ∧
    ((wTrace 2 0 2).traceRing (pTrace 2) 0).any (fun r => decide (r.rp + 1 < r.wp) && traceMatch ((wTrace 2 0 2).traceAt (pTrace 2) 0 r r.rp) (3, 0x44) &&
      !traceMatch ((wTrace 2 0 2).traceAt (pTrace 2) 0 r r.rp) (0, 0x2000808) && traceMatch ((wTrace 2 0 2).traceAt (pTrace 2) 0 r (r.rp + 1)) (0, 0x2000808) &&
      (List.range 8).all (fun k => decide (r.wp ≤ r.rp + k) || !traceMatch ((wTrace 2 0 2).traceAt (pTrace 2) 0 r (r.rp + k)) (9, 0x44))) = true ∧
    ((wTrace 2 0 2).tracePort 1 0).held = [] ∧ (pTrace 2).dbgctl.getLsbD 2 = true := by
  and_intros <;> decide +kernel
/-- A store of core 0 at 0x2000808, which home port 0 records, finds no room for, places or holds; one that the core holds exclusive. -/
theorem witness_TracedStores : Canonical (wTrace 1 0 1) ∧ (wTrace 1 0 1).paddock (wTrace 1 0 1).task.tenant = some (pTrace 1) ∧
    pteMode 0x6000000002000003 = 0 ∧ ((wTrace 1 0 1).line 0 (0x2000808 / 64)).excl = false ∧
    (((wTrace 1 0 1).setCore 0 { lines := [(0x2000808 / 64, { present := true, excl := true })] }).line 0 (0x2000808 / 64)).excl = true ∧
    (wTrace 1 0 1).portOf 0 0x2000808 0x6000000002000003 = 0 ∧
    (∃ r, (wTrace 4 0 1).traceRing (pTrace 1) 0 = some r ∧ (r.nslot : Int) ≤ (r.wp : Int) - r.rp) ∧
    (∃ r, (wTrace 1 0 1).traceRing (pTrace 1) 0 = some r ∧ (r.wp : Int) - r.rp < r.nslot ∧ (wTrace 1 0 1).traceSlot (pTrace 1) 0 r r.wp = some 0x2000410 ∧
      r.pa + 8 ≤ 0x2000410 ∧ r.wp + 1 < 2 ^ 64) ∧
    (∃ r, (wTrace 2 1 2).traceRing (pTrace 2) 0 = some r ∧ (wTrace 2 1 2).traceFirst (pTrace 2) 0 r (0, 0x2000808) = true ∧ r.rp + 1 < 2 ^ 64) ∧
    (∃ r, (wTrace 2 0 2).traceRing (pTrace 2) 0 = some r ∧ (wTrace 2 0 2).traceFirst (pTrace 2) 0 r (0, 0x2000808) = false) ∧ (pTrace 0).traceMode = 0 := by
  and_intros <;> first | decide +kernel | exact canonical_of (by decide +kernel)
def pNew : Paddock := { wPad with started := false }
def wBoot : State := { w0 with paddocks := [pNew], boot := { w0.boot with step := 4 } }
theorem witness_BootAndPartitions : Canonical wBoot ∧ let p := pNew
    let s := wBoot
    s.tokenGood [] = false ∧ p.firstCore = some 0 ∧ p.verified = true ∧ p.started = false ∧ 4 ≤ s.boot.step ∧
    (∀ t ∈ ({ s with task := { cstate := .free } } : State).tasks, t.cstate = .free ∨ t.tenant ≠ 1) ∧
    (∀ k, k < 16 → (s.stack k).tenant = some 1 → (s.stack k).state ≠ .handing) := by
  and_intros <;> first | decide +kernel | exact canonical_of (by decide +kernel)
/-- A partition whose stacks may be scrubbed: no task of another paddock reaches them. -/
theorem witness_BootAndPartitions_reset : let s : State := { w0 with task := { cstate := .free }, others := [] }
    (s.paddock 1).isSome = true ∧ (∀ k, k < 16 → (s.stack k).tenant = some 1 → s.resettable 1 k = true) ∧ (s.stack 0).tenant = some 1 := by
  and_intros <;> decide +kernel
/-- A host access of eight bytes: one that can be performed, one that an access before it makes wait, one of a counter's line. -/
def wHost : State := { w0 with links := w0.links.set 4 { state := .up }, codeBits := [(0x2000, true)] }
theorem witness_FetchIssueHost :
    Canonical wHost ∧ w0.task.cstate = .running ∧ (∃ l, w0.check w0.task.who { x := true } w0.task.pc = .ok l ∧
      (match l with | .phys pa _ => pa == 0x1000000 | .scratch _ => false) = true) ∧
    (∃ x, w0.fetch = .ok x ∧ x.2.length = 8) ∧ (w0.core 0).gate ≤ w0.clk ∧ (w0.nextSlot 0).any (fun t => t.tid == w0.task.tid) = true ∧
    w0.clocked (0 / 8) = true ∧ w0.clocked (9000 / 8) = false ∧ (∀ u ∈ w0.tasks, u.tid = w0.task.tid → u = w0.task) ∧
    2 ^ 39 < 2 ^ 39 - 1 + 2 ∧ wHost.hostLinkUp = true ∧ wHost.hostReach 0x2000000 8 = true ∧ wHost.isCode 0x2000000 = true ∧
    wHost.hostWaits wHost.hostHeld 0x2000000 8 = false ∧
    (let s : State := { wHost with hostHeld := [{ pa := 0x2000000, n := 1, write := none }] }; s.hostWaits s.hostHeld 0x2000000 8 = true) ∧
    (∀ x, 0x2000000 / 64 ≤ x → x ≤ (0x2000000 + 8 - 1) / 64 → wHost.counterLine x = false) ∧
    wHost.paddock 1 = some wPad ∧ wPad.cfg.vfs.getLsbD (2 : BitVec 6).toNat = true ∧ wPad.started = true ∧
    (let s : State := { w0 with boot := { w0.boot with lcs := 1 } }; regOf 0x180 = some .dbgctl ∧ s.regOpen 1 0 .dbgctl = false) := by
  and_intros <;> first | decide +kernel | exact canonical_of (by decide +kernel) | exact ok_of (by decide +kernel) | exact okEx_of (by decide +kernel) | exact okAnd_of (by decide +kernel)

/-- A mark on the line of the program counter; a debug register that is not open. -/
theorem witness_FetchIssueHost_marks : let s : State := { w0 with marks := [{ line := 0x1000000 / 64, tid := none, die := none }] }
    s.marks = [{ line := 0x1000000 / 64, tid := none, die := none }] ∧ s.haltered s.task.tid (0x1000000 / 64) = false ∧ w0.nextSlot 9000 = none ∧
    (w0.check w0.task.who { x := true } w0.task.pc = .ok (.phys 0x1000000 0xA000000001000003) ∨
      ∃ e, w0.check w0.task.who { x := true } w0.task.pc = .ok (.phys 0x1000000 e)) := by
  refine ⟨rfl, by decide +kernel, by decide +kernel, Or.inr ?_⟩
  have h : (match w0.check w0.task.who { x := true } w0.task.pc with | .ok (.phys pa _) => pa == 0x1000000 | _ => false) = true := by decide +kernel
  split at h
  · rename_i pa e hc; exact ⟨e, by rw [hc, eq_of_beq h]⟩
  · cases h
/-! Kernels: slot 3 holds a kernel of one stage (capacity 2) declared at 0x1001000, a launch record lies at 0x1001100. -/

def gStage (q : List Entry) : Stage := { handler := 0x1000000, cap := 2, min := 0, max := 2, twin := 0, queue := q, cores := [8] }
def kOf (st : KState) (q : List Entry) : Kernel := { state := st, gen := 4, decl := 0x1001000, stages := [gStage q], aspace := 0x1001 }
def pKern (k : Kernel) : Paddock := { wPad with kernels := wPad.kernels.set 3 k }
def wKern (k : Kernel) (decl : Nat) : State :=
  let s := reg w0 [(1, 0x1001100), (2, 0x0004000000000003), (3, 0), (4, 1)]
  { mem (mem s 0x2000100 64 decl) 0x2000200 96 (1 + (0x1000000 + 2 * 2 ^ 64 + 2 * 2 ^ 112) * 2 ^ 512) with paddocks := [pKern k], links := w0.links.set 4 { state := .up } }
def eOne : Entry := { bytes := 7, stamp := 0, src := 0 }
theorem witness_KernelInstructions : Canonical (wKern (kOf .loaded []) 0x1001000) ∧ (wKern (kOf .loaded []) 0x1001000).srcA oTask = .ok 0x1001100 ∧
    (wKern (kOf .loaded []) 0x1001000).load {} 0x1001100 64 64 = .ok 0x1001000 ∧ (wKern (kOf .loaded []) 0x1001000).load {} (0x1001100 + 64) 64 64 = .ok 0 ∧
    (wKern (kOf .loaded []) 0x1001000).task.posting = none ∧ (pKern (kOf .loaded [])).launchTarget 0x1001000 = some 3 ∧
    (pKern (kOf .draining [])).launchTarget 0x1001000 = some 3 ∧ (pKern (kOf .running [eOne, eOne])).launchTarget 0x1001000 = some 3 ∧
    (pKern (kOf .loaded [])).launchTarget 0x1001200 = none ∧ (user w0).task.sup = false ∧
    (pKern (kOf .running [])).named 0x0004000000000003 = some 3 ∧ (pKern (kOf .running [])).named 6 = none ∧ w0.task.kcur = 0 ∧
    (let t : Task := { w0.task with kcur := 0x0004000000000003 }; t.kcur ≠ 0 ∧ t.ownKernel (pKern (kOf .running [])) = some 3) ∧
    (wKern (kOf .running []) 0x1001000).srcB { oTask with b := 3 } = .ok 0 ∧ (kOf .running []).stages.length ≤ (1 : Word).toNat ∧ (kOf .running []).open = true := by
  and_intros <;> first | decide +kernel | exact canonical_of (by decide +kernel)
/-- A kernel that a drain retires at once, and one that has work; a handle of it. -/
theorem witness_KernelInstructions_drain : let s := wKern (kOf .running []) 0x1001000
    (s.live 1 3 4 = 0 ∧ (kOf .running []).queued = 0 ∧ s.postsWait 1 3 = false) ∧ (kOf .running [eOne]).queued ≠ 0 ∧
    (pKern (kOf .faulted [])).named 0x0004000000000003 = some 3 ∧ s.kernelWay 3 = true := by
  and_intros <;> decide +kernel
/-- A post that finds room, one that finds the queue full, one that finds another before it; a kernel whose die no link leads to. -/
theorem witness_KernelInstructions_posts :
    (wKern (kOf .loaded []) 0x1001000).kernelWay 3 = true ∧ (wKern { kOf .loaded [] with die := 2 } 0x1001000).kernelWay 3 = false ∧
    (wKern (kOf .loaded []) 0x1001000).postFree 1 3 0 (.task 0x001000000001) = true ∧
    (wKern (kOf .running [eOne, eOne]) 0x1001000).postFree 1 3 0 (.task 0x001000000001) = false ∧
    ({ wKern { kOf .running [] with stages := [{ gStage [] with waiters := [.task tOther.tid] }] } 0x1001000 with
      others := [{ tOther with wait := .post 3 0 false }] } : State).postFree 1 3 0 (.task 0x001000000001) = false ∧
    (kOf .loaded []).entry < (kOf .loaded []).stages.length ∧ oTask.x.pd = false := by
  and_intros <;> decide +kernel
/-- The declaration at 0x1001200, which no kernel has, can be loaded: by a LAUNCH and by the doorbell of function 2. -/
theorem witness_KernelLoad : let s := wKern (kOf .loaded []) 0x1001200
    let p := pKern (kOf .loaded [])
    (∃ d, readDecl (fun va n => s.load {} va n n) 0x1001200 = .ok d ∧ d.legal true = true ∧ s.storeUsed 0 + ((d.stages.map stageOf).map (·.cap)).sum ≤ 16384 ∧
      (bindMin (d.stages.map stageOf) p.freeCores).isSome = true) ∧
    (∃ d, readDecl (s.agentRead (p.vfWho 2)) 0x1001200 = .ok d ∧ d.legal true = true) ∧ (p.kernel 0).held = false ∧ p.cfg.forbid = false ∧
    s.task.die < 4 ∧ s.task.sup = true ∧ s.storeUsed (BitVec.ofNat 2 (p.vfWho 2).die) ≤ 16382 := by
  and_intros <;> first | decide +kernel | exact ok_of (by decide +kernel) | exact okEx_of (by decide +kernel) | exact okAnd_of (by decide +kernel)
def qFull : VFunc := { launches := List.replicate 256 (0, 0) }
theorem witness_Doorbells : Canonical (wKern (kOf .loaded []) 0x1001000) ∧ let s := wKern (kOf .loaded []) 0x1001000
    (s.doorbell 1 2 true).isSome = true ∧ (s.doorbell 1 2 false).isSome = true ∧ ((pKern (kOf .loaded [])).vf 2).launches.length < 256 ∧
    256 ≤ qFull.launches.length ∧ qFull.buffer.length < 64 ∧ 64 ≤ ({ qFull with buffer := List.replicate 64 0 } : VFunc).buffer.length ∧
    (pKern (kOf .loaded [])).committed = true ∧ ({ wPad with committed := false } : Paddock).committed = false ∧
    (pKern (kOf .loaded [])).launchTarget ((0x1001000 : BitVec 1024).extractLsb' 0 64) = some 3 ∧ s.postFree 1 3 0 (.vf 2) = true ∧
    (wKern (kOf .running [eOne, eOne]) 0x1001000).postFree 1 3 0 (.vf 2) = false ∧ (pKern (kOf .loaded [])).cfg.tenant = 1 := by
  and_intros <;> first | decide +kernel | exact canonical_of (by decide +kernel)
/-- A record that waits for an earlier posted write of its host, and one that need not. -/
theorem witness_Doorbells_order : let s : State := { wKern (kOf .loaded []) 0x1001000 with hostHeld := [{ pa := 0x2000000, n := 1, write := some [1], since := 5 }] }
    s.hostPending 1 5 = true ∧ s.hostPending 1 4 = false ∧ (wKern (kOf .loaded []) 0x1001000).hostPending 1 9 = false ∧
    (let v : VFunc := { launches := [(0x1001000, 5)] }; v.launches = (0x1001000, 5) :: [] ∧ v.stalled = none) ∧
    (pKern (kOf .loaded [])).named 0x0004000000000003 = some 3 := by
  and_intros <;> decide +kernel
theorem witness_KernelScheduling : Canonical (wKern (kOf .running [eOne]) 0x1001000) ∧ let k := kOf .running [eOne]
    let s := wKern k 0x1001000
    s.paddock 1 = some (pKern k) ∧ (pKern k).kernel 3 = k ∧ (k.stage 0).queue = eOne :: [] ∧ 0 < k.stages.length ∧ k.open = true ∧
    (k.stage 0).order = [8] ∧ (s.freeSlot 8).isSome = true ∧ (s.freeArea (pKern k) k).isSome = true ∧ s.route 1 k.die.toNat (8 / 2304) = true ∧
    (pKern k).freeCores ≠ [] ∧ (gStage [eOne]).takesCore = true ∧
    1024 * (k.period + 1) ≤ 1024 ∧ k.loadedAt ≤ 1024 * k.period ∧ (9, 0) ∈ ({ gStage [] with joining := [(9, 0)] } : Stage).joining ∧ s.live 1 3 4 = 0 ∧
    (kOf .draining []).queued = 0 ∧ (wKern (kOf .draining []) 0x1001000).postsWait 1 3 = false := by
  and_intros <;> first | decide +kernel | exact canonical_of (by decide +kernel) | exact freeSlot_isSome (by decide +kernel) (by decide +kernel)

/-- A period that begins after the load; a joining core whose old stage still has an activation there, and one whose old stage has none. -/
theorem witness_KernelScheduling_more : (let k := { kOf .running [eOne] with loadedAt := 1023, period := 1 }; k.loadedAt < 1024 * k.period) ∧
    ({ gStage [] with joining := [(9, 0)] } : Stage).joining.find? (·.1 == 9) = some (9, 0) ∧
    (wKern (kOf .running [eOne]) 0x1001000).activationsOn 1 9 3 4 0 = 0 ∧
    (let s : State := { wKern (kOf .running [eOne]) 0x1001000 with others := [{ tOther with core := 9, kcur := 0x0004000000000003 }] }
     0 < s.activationsOn 1 9 3 4 0) := by
  and_intros <;> decide +kernel
end Sys2Proof.Tests
end

section
/-! SUPPORT. The opcode and function bits of a first word, and the integers of a type: that the model's wrapping, clamping, shifting and
rotating give the numbers that R22, R23, R80 to R86 name. -/

namespace Sys2Proof.Machine

open Sys2Proof Sys2Proof.Claims

/-! ### First words (R47, R48) -/

/-- The first word of an instruction is the one that its row of the field table gives. -/
theorem word_of_row {i : Instr} {r : Row} (h : i.row = some r) : i.word = encodeFirst r i.ops := by
  unfold Instr.word encode
  rw [h]
  cases i.ops.len <;> rfl

/-- The middle part of three. -/
theorem extractLsb'_append_middle {n m k : Nat} (x : BitVec n) (y : BitVec m) (z : BitVec k) :
    (x ++ y ++ z).extractLsb' k m = y := by
  ext i hi
  simp [BitVec.getLsbD_append, hi]

/-- The function code lies above the six other fields of form A. -/
theorem extractLsb'_functionBits (fn : BitVec 5) (m : BitVec 3) (b a d : BitVec 5) (op : BitVec 7) (len : BitVec 2) :
    (fn ++ m ++ b ++ a ++ d ++ op ++ len).extractLsb' 27 5 = fn := by
  iterate 6 rw [BitVec.extractLsb'_append_eq_of_le (by decide)]
  exact BitVec.extractLsb'_eq_self

theorem encodeFirst_opcode (r : Row) (o : Ops) : (encodeFirst r o).extractLsb' 2 7 = r.op := by
  unfold encodeFirst
  split <;> exact extractLsb'_append_middle _ r.op o.len.code

theorem opcodeOf_of_row {i : Instr} {r : Row} {op : BitVec 7} (h : i.row = some r) (hop : r.op = op) : opcodeOf i = op := by
  rw [opcodeOf, word_of_row h, encodeFirst_opcode, hop]

theorem functionOf_of_row {i : Instr} {r : Row} {fn : BitVec 5} (h : i.row = some r) (hf : r.form = .A) (hfn : r.fn = fn) :
    functionOf i = fn := by
  rw [functionOf, word_of_row h, encodeFirst, hf, ← hfn]
  exact extractLsb'_functionBits r.fn _ _ _ _ _ _

/-! ### Integers of a type (R22, R23, R76) -/

/-- An integer wrapped to a type: the number that its low W bits stand for. -/
def wrap (T : Fmt) (r : Int) : Int := if Fmt.signed T then Int.bmod r (2 ^ Fmt.width T) else r % 2 ^ Fmt.width T

theorem image_eq_wrap (T : Fmt) (r : Int) : image T r = BitVec.ofInt 64 (wrap T r) := rfl

theorem width_pos (T : Fmt) : 0 < Fmt.width T := by cases T <;> decide

theorem wrap_emod (T : Fmt) (r : Int) : wrap T r % 2 ^ Fmt.width T = r % 2 ^ Fmt.width T := by
  unfold wrap
  split
  · exact_mod_cast Int.bmod_emod
  · exact Int.emod_emod_of_dvd r dvd_rfl

/-- Only the low W bits count. -/
theorem image_congr {T : Fmt} {r q : Int} (h : r % 2 ^ Fmt.width T = q % 2 ^ Fmt.width T) : image T r = image T q := by
  unfold image
  split
  · rw [← Int.emod_bmod r, ← Int.emod_bmod q]
    push_cast
    rw [h]
  · rw [h]

theorem image_num (T : Fmt) (x : Word) : image T (num T x) = image T x.toNat := image_congr (wrap_emod T x.toNat)

theorem valOf_eq_wrap (T : Fmt) (n : Nat) : valOf T n = wrap T n := by
  unfold valOf wrap
  cases Fmt.signed T
  · simp
  · obtain ⟨k, hk⟩ : ∃ k, Fmt.width T = k + 1 := ⟨_, (Nat.sub_add_cancel (width_pos T)).symm⟩
    have hp : (2 : Nat) ^ (k + 1) = 2 * 2 ^ k := Nat.pow_succ'
    have hc : (2 : Int) ^ (k + 1) = ((2 ^ (k + 1) : Nat) : Int) := by push_cast; rfl
    simp only [Bool.true_and, decide_eq_true_eq, if_true, Int.bmod_def, hk, Nat.add_sub_cancel, hc, ← Int.natCast_emod]
    split <;> split <;> omega

theorem valOf_eq_num (T : Fmt) (x : Word) : valOf T x.toNat = num T x := valOf_eq_wrap T x.toNat

theorem extend_eq_image (T : Fmt) (n : Nat) : extend T n = image T n := by
  rw [extend, valOf_eq_wrap, image_eq_wrap]

/-- The low W bits of an integer, extended, are the integer wrapped to the type. -/
theorem extend_emod (T : Fmt) (r : Int) : extend T (r % 2 ^ Fmt.width T).toNat = image T r := by
  rw [extend_eq_image, Int.toNat_of_nonneg (Int.emod_nonneg r (by positivity))]
  exact image_congr (Int.emod_emod_of_dvd r dvd_rfl)

theorem least_le_greatest (T : Fmt) : least T ≤ greatest T := by cases T <;> decide

/-- A clamp is a minimum of a maximum. -/
theorem clampInt_eq {lo hi : Int} (h : lo ≤ hi) (r : Int) : clampInt lo hi r = min hi (max lo r) := by
  unfold clampInt; split
  · omega
  · split <;> omega

/-- A result wrapped to the type, or clamped with SAT where the clamp changes it (R23). -/
theorem narrow_eq (T : Fmt) (sat : Bool) (r : Int) :
    extend T (narrow T sat r).1 = fitted T sat r ∧ (narrow T sat r).2 = satFlag T sat r := by
  cases sat
  · exact ⟨extend_emod T r, by simp [narrow, satFlag]⟩
  · have hc : clampInt (loOf T) (hiOf T) r = min (greatest T) (max (least T) r) := clampInt_eq (least_le_greatest T) r
    have hle := least_le_greatest T
    have hne : min (greatest T) (max (least T) r) ≠ r ↔ r < least T ∨ greatest T < r := by omega
    simp only [narrow, if_true, hc, fitted, satFlag, true_and]
    exact ⟨extend_emod T _, by simp only [flagIf, hne, decide_eq_true_eq]; rfl⟩

/-! ### Results of two sources (R80 to R84) -/

theorem arith_eq (f : Int → Int → Int) (T : Fmt) (sat : Bool) (x y : Word) :
    arith f T sat x y = (fitted T sat (f (num T x) (num T y)), satFlag T sat (f (num T x) (num T y))) := by
  obtain ⟨hv, hf⟩ := narrow_eq T sat (f (num T x) (num T y))
  simp only [arith, valOf_eq_num, hv, hf]

theorem mulHigh_eq (T : Fmt) (x y : Word) : mulHigh T x y = image T (num T x * num T y / 2 ^ Fmt.width T) := by
  rw [mulHigh, valOf_eq_num, valOf_eq_num, extend_emod]

/-- A zero divisor gives all ones, the image of −1. -/
theorem divide_eq (T : Fmt) (x y : Word) :
    divide T x y = image T (if num T y = 0 then -1 else (num T x).tdiv (num T y)) := by
  simp only [divide, valOf_eq_num]
  split
  · rw [extend_eq_image]
    apply image_congr
    push_cast [Nat.one_le_two_pow]
    rw [sub_eq_add_neg, Int.add_emod_left]
  · exact extend_emod T _

theorem remainder_eq (T : Fmt) (x y : Word) :
    remainder T x y = image T (if num T y = 0 then num T x else (num T x).tmod (num T y)) := by
  simp only [remainder, valOf_eq_num, extend_emod]

theorem lesser_eq (T : Fmt) (x y : Word) : lesser T x y = image T (min (num T x) (num T y)) := by
  simp only [lesser, valOf_eq_num, extend_eq_image]
  split
  · next h => rw [min_eq_right h.le, image_num]
  · next h => rw [min_eq_left (not_lt.mp h), image_num]

theorem greater_eq (T : Fmt) (x y : Word) : greater T x y = image T (max (num T x) (num T y)) := by
  simp only [greater, valOf_eq_num, extend_eq_image]
  split
  · next h => rw [max_eq_right h.le, image_num]
  · next h => rw [max_eq_left (not_lt.mp h), image_num]

theorem logic_eq (f : Word → Word → Word) (T : Fmt) (x y : Word) : logic f T x y = image T (f x y).toNat := extend_eq_image T _

/-! ### Shifts and rotates (R85) -/

theorem shlBits_eq (w x a : Nat) : shlBits w x a = if a < w then (BitVec.ofNat w x <<< a).toNat else 0 := by
  simp [shlBits, Nat.shiftLeft_eq]

theorem shrBits_eq (w x a : Nat) : shrBits w x a = if a < w then (BitVec.ofNat w x >>> a).toNat else 0 := by
  simp [shrBits, Nat.shiftRight_eq_div_pow]

/-- An arithmetic shift right is a division that rounds down; its bits are the quotient modulo 2 ^ w. -/
theorem sarBits_emod {w : Nat} (hw : 0 < w) (x a : Nat) :
    (sarBits w x a : Int) % 2 ^ w = ((BitVec.ofNat w x).toInt / 2 ^ min a w) % 2 ^ w := by
  have hhalf : 2 ^ (w - 1) + 2 ^ (w - 1) = 2 ^ w := Nat.two_pow_pred_add_two_pow_pred hw
  have hsplit : (2 : Int) ^ w = 2 ^ (w - min a w) * 2 ^ min a w := by rw [← pow_add]; congr 1; omega
  have hle : 2 ^ (w - min a w) ≤ 2 ^ w := Nat.pow_le_pow_right (by decide) (by omega)
  have hk : (if a < w then a else w) = min a w := by split <;> omega
  rw [BitVec.toInt_eq_toNat_cond, BitVec.toNat_ofNat, sarBits, hk]
  by_cases hneg : 2 ^ (w - 1) ≤ x % 2 ^ w
  · rw [if_pos hneg, if_neg (by omega)]
    have hq : (((x % 2 ^ w : Nat) : Int) - ((2 ^ w : Nat) : Int)) / 2 ^ min a w =
        ((x % 2 ^ w : Nat) : Int) / 2 ^ min a w - 2 ^ (w - min a w) := by
      push_cast
      rw [hsplit]
      exact Int.sub_mul_ediv_right _ _ (by positivity)
    rw [hq]
    push_cast [hle]
    rw [← add_sub_assoc, add_sub_right_comm, Int.add_emod_right]
  · rw [if_neg hneg, if_pos (by omega)]
    push_cast
    simp

/-- The two parts of a rotated word do not overlap. -/
theorem rotate_parts_eq_or {w y k : Nat} (hy : y < 2 ^ w) (hk : k ≤ w) :
    y * 2 ^ k % 2 ^ w + y / 2 ^ (w - k) = (y <<< k) % 2 ^ w ||| y >>> (w - k) := by
  have hw : 2 ^ w = 2 ^ (w - k) * 2 ^ k := by rw [← pow_add]; congr 1; omega
  have hlow : y / 2 ^ (w - k) < 2 ^ k := Nat.div_lt_of_lt_mul (hw ▸ hy)
  rw [Nat.shiftLeft_eq, Nat.shiftRight_eq_div_pow, hw, Nat.mul_mod_mul_right, Nat.mul_comm _ (2 ^ k)]
  exact Nat.two_pow_add_eq_or_of_lt hlow _

theorem rolBits_eq {w : Nat} (hw : 0 < w) (x a : Nat) : rolBits w x a = ((BitVec.ofNat w x).rotateLeft a).toNat := by
  rw [BitVec.toNat_rotateLeft, BitVec.toNat_ofNat]
  exact rotate_parts_eq_or (Nat.mod_lt x (by positivity)) (Nat.mod_lt a hw).le

theorem rorBits_eq {w : Nat} (hw : 0 < w) (x a : Nat) : rorBits w x a = ((BitVec.ofNat w x).rotateRight a).toNat := by
  have hy : x % 2 ^ w < 2 ^ w := Nat.mod_lt x (by positivity)
  have ha : a % w < w := Nat.mod_lt a hw
  rw [BitVec.toNat_rotateRight, BitVec.toNat_ofNat, rorBits, rolBits, Nat.or_comm]
  rcases Nat.eq_zero_or_pos (a % w) with h0 | hpos
  · simp [h0, Nat.shiftLeft_eq, Nat.mod_eq_of_lt hy, Nat.div_eq_of_lt hy]
  · rw [Nat.mod_eq_of_lt (by omega : w - a % w < w), rotate_parts_eq_or hy (by omega), Nat.sub_sub_self ha.le]

theorem shift_shl (T : Fmt) (x y : Word) :
    shift shlBits T x y = image T (if y.toNat < Fmt.width T then (low T x <<< y.toNat).toNat else 0) := by
  rw [shift, extend_eq_image, shlBits_eq, Nat.cast_ite, Nat.cast_zero, low]

theorem shift_shr (T : Fmt) (x y : Word) :
    shift shrBits T x y = image T (if y.toNat < Fmt.width T then (low T x >>> y.toNat).toNat else 0) := by
  rw [shift, extend_eq_image, shrBits_eq, Nat.cast_ite, Nat.cast_zero, low]

theorem shift_sar (T : Fmt) (x y : Word) : shift sarBits T x y = image T ((low T x).toInt / 2 ^ min y.toNat (Fmt.width T)) := by
  rw [shift, extend_eq_image]
  exact image_congr (sarBits_emod (width_pos T) _ _)

theorem shift_rol (T : Fmt) (x y : Word) : shift rolBits T x y = image T ((low T x).rotateLeft y.toNat).toNat := by
  rw [shift, extend_eq_image, rolBits_eq (width_pos T), low]

theorem shift_ror (T : Fmt) (x y : Word) : shift rorBits T x y = image T ((low T x).rotateRight y.toNat).toNat := by
  rw [shift, extend_eq_image, rorBits_eq (width_pos T), low]

end Sys2Proof.Machine
end

section
/-! SUPPORT. The end of an instruction that touches its task alone: what it leaves in the registers, in the ports and in the cores' logs. -/

namespace Sys2Proof.Machine

open Sys2Proof Sys2Proof.Claims

/-! ### Consuming the words of the source positions (R53, R371) -/

/-- A position that names a port takes one word from it. -/
theorem popIf_port (s : State) (named : Bool) (q : BitVec 5) (n : BitVec 2) :
    (if named then s.pop q else s).task.port n =
      { s.task.port n with queue := (s.task.port n).queue.drop (if named ∧ q.setWidth 2 = n then 1 else 0) } := by
  cases named
  · simp
  · simp only [if_true, State.pop_port, true_and, eq_comm (a := q.setWidth 2)]
    split <;> simp

theorem take_port (s : State) (o : Ops) (n : BitVec 2) :
    (s.take o).task.port n = { s.task.port n with queue := (s.task.port n).queue.drop (portTakes o false n) } := by
  simp [State.take, popIf_port, portTakes]

/-- The cores of `t` are those of `s`, but for the log of words that the task's own core keeps (R371). -/
structure OnlyLog (s t : State) : Prop where
  wf : smapWf {} t.cores = true
  core : t.task.core = s.task.core
  logs : ∀ k, ∃ l, t.core k = { s.core k with consumed := l } ∧ (k ≠ s.task.core → l = (s.core k).consumed)

theorem OnlyLog.refl {s : State} (h : smapWf {} s.cores = true) : OnlyLog s s := ⟨h, rfl, fun _ => ⟨_, rfl, fun _ => rfl⟩⟩

theorem OnlyLog.popIf {s t : State} (h : OnlyLog s t) (named : Bool) (q : BitVec 5) : OnlyLog s (if named then t.pop q else t) := by
  cases named
  · exact h
  · obtain ⟨cs, ps, hp⟩ := State.pop_eq t q
    refine ⟨State.pop_cores_wf h.wf q, by simp [hp, h.core], fun k => ?_⟩
    obtain ⟨l, hl, hlog⟩ := h.logs k
    obtain ⟨l', hl', hlog'⟩ := State.pop_core h.wf q k
    refine ⟨l', by simp [hl', hl], fun hk => ?_⟩
    rw [hlog' (h.core ▸ hk), hl]
    exact hlog hk

theorem take_onlyLog {s : State} (h : smapWf {} s.cores = true) (o : Ops) : OnlyLog s (s.take o) :=
  (((OnlyLog.refl h).popIf o.x.pa o.a).popIf o.x.pb o.b).popIf o.x.pc o.x.c

theorem OnlyLog.coresAfter {s t : State} (h : OnlyLog s t) : CoresAfter false s t := by
  refine ⟨fun k => ?_, fun k hk => ?_, ?_, ?_⟩
  · obtain ⟨l, hl, -⟩ := h.logs k
    rw [hl]
  · obtain ⟨l, hl, hlog⟩ := h.logs k
    rw [hl, hlog hk]
  · obtain ⟨l, hl, -⟩ := h.logs s.task.core
    simp [hl]
  · obtain ⟨l, hl, -⟩ := h.logs s.task.core
    simp [hl]

/-- An instruction that names no port takes no word. -/
theorem take_of_no_port (s : State) {o : Ops} (ha : o.x.pa = false) (hb : o.x.pb = false) (hc : o.x.pc = false) : s.take o = s := by
  simp [State.take, ha, hb, hc]

/-! ### The end of an instruction of the task alone -/

/-- The state after an instruction that leaves the scalar registers `g` and the flag register `f`, has taken the words of its source
positions and continues at `a`. -/
def endAt (s : State) (o : Ops) (g : Vector Word 32) (f a : Word) : State :=
  ((s.setTask { s.task with g := g, fsr := f }).take o).goto a

section

variable {s : State} {o : Ops} {g : Vector Word 32} {f a : Word}

theorem endAt_task : (endAt s o g f a).task =
    { s.task with g := g, fsr := f, pc := a, ports := (endAt s o g f a).task.ports, wait := .none } := by
  obtain ⟨cs, ps, h⟩ := State.take_eq (s.setTask { s.task with g := g, fsr := f }) o
  simp only [endAt, h]
  rfl

theorem endAt_portsTaken : PortsTaken o false s (endAt s o g f a) := by
  intro q
  have hp : (endAt s o g f a).task.port q = _ := take_port (s.setTask { s.task with g := g, fsr := f }) o q
  rw [hp]
  exact ⟨rfl, rfl⟩

theorem endAt_coresAfter (hs : Canonical s) : CoresAfter false s (endAt s o g f a) := by
  obtain ⟨hwf, hcore, hlogs⟩ := take_onlyLog (s := s.setTask { s.task with g := g, fsr := f }) hs.cores o
  exact OnlyLog.coresAfter ⟨hwf, hcore, hlogs⟩

theorem endAt_onlyTask : OnlyTask s (endAt s o g f a) := by
  obtain ⟨cs, ps, h⟩ := State.take_eq (s.setTask { s.task with g := g, fsr := f }) o
  refine ⟨?_, fun k => ?_, fun k => ?_⟩ <;> simp only [endAt, h] <;> rfl

end

/-- Consuming words leaves the program counter. -/
theorem take_pc (s : State) (o : Ops) : (s.take o).task.pc = s.task.pc := by
  obtain ⟨cs, ps, h⟩ := State.take_eq s o
  rw [h]

theorem flag_zero (s : State) : s.flag 0 = s := by
  rw [State.flag, show (0 : BitVec 6).setWidth 64 = 0#64 from rfl, BitVec.or_zero]
  rfl

/-- An instruction that has raised the flags `f` and written `v` to a register. -/
theorem take_wr_eq_endAt (s : State) (o : Ops) (f : BitVec 6) (v a : Word) :
    (((s.flag f).wr o.d v).take o).goto a = endAt s o (s.task.wr o.d v).g (s.task.fsr ||| f.setWidth 64) a := by
  have h : (s.flag f).wr o.d v = s.setTask { s.task with g := (s.task.wr o.d v).g, fsr := s.task.fsr ||| f.setWidth 64 } := by
    unfold State.wr Task.wr
    split <;> rfl
  rw [h, endAt]

theorem advance_eq_goto (s : State) (o : Ops) : s.advance o = s.goto (s.task.pc + BitVec.ofNat 64 o.len.bytes) := rfl

/-- A scalar register of the task at the end: g0 reads 0, d the value written, every other one its old value. -/
theorem endAt_wr_rd (s : State) (o : Ops) (v f a : Word) (n : BitVec 5) :
    (endAt s o (s.task.wr o.d v).g f a).task.rd n = if n = o.d ∧ n ≠ 0 then v else s.task.rd n := by
  rw [← Task.rd_wr]
  unfold Task.rd
  rw [endAt_task]

theorem endAt_wr_rd_self (s : State) (o : Ops) (v f a : Word) :
    (endAt s o (s.task.wr o.d v).g f a).task.rd o.d = if o.d = 0 then 0 else v := by
  rw [endAt_wr_rd]
  by_cases h : o.d = 0
  · rw [if_neg (fun e => e.2 h), if_pos h, h, Task.rd_zero]
  · rw [if_pos ⟨rfl, h⟩, if_neg h]

/-- An instruction that raises the flags `f`, writes `v` to d and completes. -/
theorem delivers_of_complete {i : Instr} {s : State} {o : Ops} {f : BitVec 6} {v : Word} (hs : Canonical s)
    (he : exec i s = s.run i ((s.flag f).complete o v)) : Delivers i o s (s.flag f) v f false := by
  refine ⟨fun hd => ?_, fun hd u hu => ?_⟩
  · rw [he, State.complete_register _ _ _ hd, State.run_eq, State.finish_ok, advance_eq_goto, take_pc, take_wr_eq_endAt]
    refine ⟨_, rfl, ?_, fun n hn => ?_, ?_, ?_, endAt_portsTaken, endAt_coresAfter hs, ?_, endAt_onlyTask⟩
    · exact endAt_wr_rd_self s o v _ _
    · rw [endAt_wr_rd, if_neg (fun h => hn h.1)]
    · rw [endAt_task]
    · rw [Advanced, endAt_task]
      simp
    · rw [endAt_task]
  · rw [he, State.complete_port _ _ _ hd u hu, State.run_eq, State.finish_ok]

end Sys2Proof.Machine
end

section
/-! CERTIFICATE. The scalar instructions of two sources (R80 to R86), branches and jumps (R89, R90). -/

namespace Sys2Proof.Machine

open Sys2Proof Sys2Proof.Claims

/-! ### Instructions of two sources -/

/-- An instruction of two sources delivers its function of them, with the flags of the result. -/
theorem delivers_of_alu2 {i : Instr} {s : State} {o : Ops} {x y : Word} {f : Word → Word → Word × BitVec 6} {v : Word} {e : BitVec 6}
    (hs : Canonical s) (hx : s.srcA o = .ok x) (hy : s.srcBL o = .ok y) (he : exec i s = s.alu2 i o f) (hf : f x y = (v, e)) :
    Delivers i o s (s.flag e) v e false := by
  apply delivers_of_complete hs
  rw [he, State.alu2, hx, hy]
  simp only [bind, Except.bind, hf]

theorem gives_of_alu2 {i : Instr} {s : State} {o : Ops} {x y : Word} {f : Word → Word → Word} {v : Word}
    (hs : Canonical s) (hx : s.srcA o = .ok x) (hy : s.srcBL o = .ok y) (he : exec i s = s.alu2 i o (plain f)) (hf : f x y = v) :
    Gives i o s v :=
  delivers_of_alu2 hs hx hy he (by rw [plain, hf])

/-- A comparison gives 1 where its condition holds between the numbers of the type, else 0 (R86). -/
theorem cmp_gives {s : State} {o : Ops} {x y : Word} (k : CmpCond) {p : Prop} [Decidable p] (hs : Canonical s) (hx : s.srcA o = .ok x)
    (hy : s.srcBL o = .ok y) (hp : k.holds (num o.ity x) (num o.ity y) = true ↔ p) :
    Gives (.cmp k o) o s (if p then 1 else 0) := by
  refine gives_of_alu2 hs hx hy rfl ?_
  simp only [valOf_eq_num, hp]

/-! ### Branches and jumps -/

/-- The branch `i` continues at its target where `c` holds, else at the next instruction, and changes nothing else. -/
def Goes (i : Instr) (o : Ops) (s : State) (c : Prop) : Prop :=
  ∃ t, exec i s = .next t ∧
    (c → t.task.pc = s.task.pc + o.imm13 * 4) ∧ (¬ c → Advanced o s t) ∧ PortsTaken o false s t ∧ CoresAfter false s t ∧
    t.task = { s.task with pc := t.task.pc, ports := t.task.ports, wait := .none } ∧ OnlyTask s t

/-- The jump `i` leaves the address of the next instruction in d and continues at `target`. -/
def Links (i : Instr) (o : Ops) (s : State) (target : Word) : Prop :=
  (o.x.pd = false → ∃ t, exec i s = .next t ∧ t.task.pc = target ∧
    t.task.rd o.d = (if o.d = 0 then 0 else s.task.pc + BitVec.ofNat 64 o.len.bytes) ∧
    (∀ n, n ≠ o.d → t.task.rd n = s.task.rd n) ∧ PortsTaken o false s t ∧ CoresAfter false s t ∧
    t.task = { s.task with g := t.task.g, pc := t.task.pc, ports := t.task.ports, wait := .none } ∧ OnlyTask s t) ∧
  (o.x.pd = true → ∀ u, s.send (o.d.setWidth 2) (s.task.pc + BitVec.ofNat 64 o.len.bytes) = .ok u →
    ∃ t, exec i s = .next t ∧ t.task.pc = target ∧ t.task.g = (u.take o).task.g)

theorem goes_of_branch {i : Instr} {s : State} {o : Ops} {x y : Word} {c : Word → Word → Bool} {p : Prop} (hs : Canonical s)
    (hx : s.srcA o = .ok x) (hy : s.srcB o = .ok y) (he : exec i s = s.branch i o c) (hp : c x y = true ↔ p) : Goes i o s p := by
  have hrun : exec i s = .next (endAt s o s.task.g s.task.fsr
      (if c x y then s.task.pc + o.imm13 * 4 else s.task.pc + BitVec.ofNat 64 o.len.bytes)) := by
    rw [he, State.branch, hx, hy]
    simp only [bind, Except.bind, State.run_eq, State.finish_ok, advance_eq_goto, take_pc, ← apply_ite]
    rfl
  refine ⟨_, hrun, fun h => ?_, fun h => ?_, endAt_portsTaken, endAt_coresAfter hs, ?_, endAt_onlyTask⟩
  · rw [endAt_task, if_pos (hp.mpr h)]
  · rw [Advanced, endAt_task, if_neg (mt hp.mp h)]
  · rw [endAt_task]

/-- What a jump does: it writes the link, consumes the words of its sources and continues at its target. -/
def State.jump (s : State) (i : Instr) (o : Ops) (target : Word) : Host.Outcome State Fault Refusal :=
  s.run i (do
    let s1 ← s.put o (s.task.pc + BitVec.ofNat 64 o.len.bytes)
    .ok ((s1.take o).goto target))

theorem links_of_jump {i : Instr} {s : State} {o : Ops} {target : Word} (hs : Canonical s) (he : exec i s = s.jump i o target) :
    Links i o s target := by
  refine ⟨fun hd => ?_, fun hd u hu => ⟨(u.take o).goto target, ?_, rfl, rfl⟩⟩
  · have hrun : exec i s = .next (endAt s o (s.task.wr o.d (s.task.pc + BitVec.ofNat 64 o.len.bytes)).g
        (s.task.fsr ||| (0 : BitVec 6).setWidth 64) target) := by
      rw [he, State.jump, ← take_wr_eq_endAt, flag_zero]
      simp [State.put, hd, bind, Except.bind]
    refine ⟨_, hrun, ?_, ?_, fun n hn => ?_, endAt_portsTaken, endAt_coresAfter hs, ?_, endAt_onlyTask⟩
    · rw [endAt_task]
    · exact endAt_wr_rd_self s o _ _ _
    · rw [endAt_wr_rd, if_neg (fun h => hn h.1)]
    · rw [endAt_task]
      simp
  · simp [he, State.jump, State.put, hd, hu, bind, Except.bind]

theorem execJal_eq_jump {s : State} {o : Ops} (ha : o.x.pa = false) (hb : o.x.pb = false) (hc : o.x.pc = false) :
    exec (.jal o) s = s.jump (.jal o) o (s.task.pc + o.imm18 * 4) := by
  simp only [State.jump, take_of_no_port _ ha hb hc]
  rfl

theorem execJalr_eq_jump {s : State} {o : Ops} {x : Word} (hx : s.srcA o = .ok x) (h : (x + o.imm13).extractLsb' 0 2 = 0) :
    exec (.jalr o) s = s.jump (.jalr o) o (x + o.imm13) := by
  change execJalr o s = _
  rw [execJalr, hx, State.jump]
  simp only [bind, Except.bind, need_ok.mpr (beq_iff_eq.mpr h)]

/-- A misaligned target takes the alignment fault (R90). -/
theorem execJalr_misaligned {s : State} {o : Ops} {x : Word} (hx : s.srcA o = .ok x) (h : (x + o.imm13).extractLsb' 0 2 ≠ 0) :
    exec (.jalr o) s = .next (s.trap { kind := 4, info0 := x + o.imm13 }) := by
  change execJalr o s = _
  rw [execJalr, hx]
  simp only [bind, Except.bind, need_error.mpr ⟨beq_eq_false_iff_ne.mpr h, rfl⟩]
  rfl

/-! ### The obligations -/

/-- Settles O7: each instruction of two sources completes with its function of them, and the model's arithmetic on the low W bits is that
of the numbers of the type. -/
theorem twoSourceResults : Obligations.TwoSourceResults := by
  intro o s x y hs hx hy
  exact ⟨
    ⟨opcodeOf_of_row rfl rfl, functionOf_of_row rfl rfl rfl⟩,
    ⟨opcodeOf_of_row rfl rfl, functionOf_of_row rfl rfl rfl⟩,
    ⟨opcodeOf_of_row rfl rfl, functionOf_of_row rfl rfl rfl⟩,
    ⟨opcodeOf_of_row rfl rfl, functionOf_of_row rfl rfl rfl⟩,
    -- ADD, SUB, MUL
    delivers_of_alu2 hs hx hy rfl (arith_eq (· + ·) _ _ x y),
    delivers_of_alu2 hs hx hy rfl (arith_eq (· - ·) _ _ x y),
    delivers_of_alu2 hs hx hy rfl (arith_eq (· * ·) _ _ x y),
    -- MULH, DIV, REM
    gives_of_alu2 hs hx hy rfl (mulHigh_eq _ x y),
    gives_of_alu2 hs hx hy rfl (divide_eq _ x y),
    gives_of_alu2 hs hx hy rfl (remainder_eq _ x y),
    -- AND, OR, XOR, ANDN, ORN, XNOR
    gives_of_alu2 hs hx hy rfl (logic_eq _ _ x y), gives_of_alu2 hs hx hy rfl (logic_eq _ _ x y),
    gives_of_alu2 hs hx hy rfl (logic_eq _ _ x y), gives_of_alu2 hs hx hy rfl (logic_eq _ _ x y),
    gives_of_alu2 hs hx hy rfl (logic_eq _ _ x y), gives_of_alu2 hs hx hy rfl (logic_eq _ _ x y),
    -- SHL, SHR, SAR, ROL, ROR
    gives_of_alu2 hs hx hy rfl (shift_shl _ x y),
    gives_of_alu2 hs hx hy rfl (shift_shr _ x y),
    gives_of_alu2 hs hx hy rfl (shift_sar _ x y),
    gives_of_alu2 hs hx hy rfl (shift_rol _ x y),
    gives_of_alu2 hs hx hy rfl (shift_ror _ x y),
    -- MIN, MAX, CMP
    gives_of_alu2 hs hx hy rfl (lesser_eq _ x y),
    gives_of_alu2 hs hx hy rfl (greater_eq _ x y),
    cmp_gives .eq hs hx hy decide_eq_true_iff, cmp_gives .ne hs hx hy decide_eq_true_iff,
    cmp_gives .lt hs hx hy decide_eq_true_iff, cmp_gives .ge hs hx hy decide_eq_true_iff,
    cmp_gives .gt hs hx hy decide_eq_true_iff, cmp_gives .le hs hx hy decide_eq_true_iff⟩

/-- The branches and what each compares (R89). -/
theorem branchTargets : BranchTargets := by
  intro o s x y hs hx hy
  exact ⟨
    goes_of_branch hs hx hy rfl beq_iff_eq, goes_of_branch hs hx hy rfl bne_iff_ne,
    goes_of_branch hs hx hy rfl BitVec.slt_iff_toInt_lt, goes_of_branch hs hx hy rfl (by simp [BitVec.slt_eq_decide]),
    goes_of_branch hs hx hy rfl BitVec.ult_iff_lt, goes_of_branch hs hx hy rfl (by simp [BitVec.ult_eq_decide]),
    opcodeOf_of_row rfl rfl, opcodeOf_of_row rfl rfl, opcodeOf_of_row rfl rfl, opcodeOf_of_row rfl rfl, opcodeOf_of_row rfl rfl,
    opcodeOf_of_row rfl rfl⟩

/-- The two jumps: an aligned target is reached with the link written, any other faults (R90). -/
theorem jumpAndLink : JumpAndLink := by
  intro o s hs
  refine ⟨fun ha hb hc => links_of_jump hs (execJal_eq_jump ha hb hc), fun x hx => ⟨fun h => ?_, fun h => ?_⟩⟩
  · exact links_of_jump hs (execJalr_eq_jump hx h)
  · exact execJalr_misaligned hx h

/-- Settles O9: a branch ends at its target or at the next instruction; a jump writes the link and ends at its target. -/
theorem controlFlow : Obligations.ControlFlow := ⟨branchTargets, jumpAndLink⟩

end Sys2Proof.Machine
end

section
/-! SUPPORT. Packed elements, and reads of tiles. -/

namespace Sys2Proof.Machine

open Sys2Proof Sys2Proof.Claims

/-! ### Packed elements (R32, R207) -/

/-- Element j of packed elements is the j-th of them; past the last one it is 0. -/
theorem elemAt_packElems (w : Nat) (l : List Nat) (j : Nat) : elemAt (packElems w l) w j = l.getD j 0 % 2 ^ w := by
  induction l generalizing j with
  | nil => simp [packElems, elemAt]
  | cons x l ih =>
    cases j with
    | zero => simp [packElems, elemAt]
    | succ j =>
      have h : packElems w (x :: l) / 2 ^ w = packElems w l := by
        rw [packElems, Nat.add_mul_div_left _ _ (Nat.two_pow_pos w), Nat.div_eq_of_lt (Nat.mod_lt _ (Nat.two_pow_pos w)), Nat.zero_add]
      rw [elemAt, Nat.mul_succ, Nat.add_comm, pow_add, ← Nat.div_div_eq_div_mul, h]
      exact ih j

/-- Element j of the n elements of width w that lie in element i of width w · n. -/
theorem elemAt_elemAt (x : Nat) {w n j : Nat} (i : Nat) (hj : j < n) : elemAt (elemAt x (w * n) i) w j = elemAt x w (n * i + j) := by
  have hin : w * j + w ≤ w * n := by rw [← Nat.mul_succ]; exact Nat.mul_le_mul_left w hj
  apply Nat.eq_of_testBit_eq
  intro k
  simp only [elemAt, Nat.testBit_mod_two_pow, Nat.testBit_div_two_pow]
  by_cases hk : k < w
  · rw [decide_eq_true hk, decide_eq_true (by omega), Bool.true_and, Bool.true_and, Bool.true_and,
      show k + w * j + w * n * i = k + w * (n * i + j) by ring]
  · simp [hk]

/-- Element i of a vector of bits, where it lies inside the vector. -/
theorem extractLsb'_ofNat_toNat (x : Nat) {n w i : Nat} (h : w * i + w ≤ n) :
    ((BitVec.ofNat n x).extractLsb' (w * i) w).toNat = elemAt x w i := by
  apply Nat.eq_of_testBit_eq
  intro k
  by_cases hk : k < w
  · have hn : k + w * i < n := by omega
    simp [elemAt, Nat.shiftRight_eq_div_pow, Nat.testBit_div_two_pow, hk, hn]
  · simp [elemAt, hk]

/-- A list made of a function of its places. -/
theorem getD_map_range {n j : Nat} (f : Nat → Nat) (hj : j < n) : ((List.range n).map f).getD j 0 = f j := by
  rw [List.getD_eq_getElem?_getD, List.getElem?_map, List.getElem?_range hj]
  rfl

/-- Elements below 2 ^ (w · n) are elements of the number's low bits. -/
theorem elemAt_mod (x : Nat) {w n j : Nat} (hj : j < n) : elemAt (x % 2 ^ (w * n)) w j = elemAt x w j := by
  have hlow : x % 2 ^ (w * n) = elemAt x (w * n) 0 := by rw [elemAt, Nat.mul_zero, pow_zero, Nat.div_one]
  rw [hlow, elemAt_elemAt x 0 hj, Nat.mul_zero, Nat.zero_add]

/-- Bits packed one by one. -/
theorem getLsbD_packElems_one {n i : Nat} (f : Nat → Bool) (hi : i < n) :
    (BitVec.ofNat n (packElems 1 ((List.range n).map fun i => if f i then 1 else 0))).getLsbD i = f i := by
  have h := elemAt_packElems 1 ((List.range n).map fun i => if f i then 1 else 0) i
  rw [getD_map_range _ hi, elemAt, Nat.one_mul, pow_one] at h
  rw [BitVec.getLsbD_ofNat, decide_eq_true hi, Bool.true_and, Nat.testBit_eq_decide_div_mod_eq, h]
  cases f i <;> rfl

/-- Every element of a filled row is the one it is filled with. -/
theorem elemAt_fillRow {w n j : Nat} (x : Nat) (hj : j < n) : elemAt (fillRow w n x) w j = x % 2 ^ w := by
  rw [fillRow, elemAt_packElems, List.getD_eq_getElem?_getD, List.getElem?_replicate, if_pos hj, Option.getD_some]

/-! ### Rows and scales of a tile (R207) -/

/-- The columns of a format fill a row. -/
theorem fmtBits_mul_tileCols (f : Fmt) : fmtBits f * tileCols f = 512 := by cases f <;> rfl

/-- Row i and scale byte b of a tile whose rows and scales are made of numbers. -/
theorem row_of_ofNat {x : Tile} {n : Nat} (h : x.rows = BitVec.ofNat 16384 n) {i : Nat} (hi : i < 32) : x.row i = elemAt n 512 i := by
  rw [Tile.row, h]
  exact extractLsb'_ofNat_toNat n (by omega)

theorem scale_of_ofNat {x : Tile} {n : Nat} (h : x.scales = BitVec.ofNat 1024 n) {i b : Nat} (hi : i < 32) (hb : b < 4) :
    (x.scale i b).toNat = elemAt n 8 (4 * i + b) := by
  rw [Tile.scale, h, show 32 * i + 8 * b = 8 * (4 * i + b) by ring]
  exact extractLsb'_ofNat_toNat n (by omega)

/-! ### A write of a tile -/

/-- The tile that was written reads its new value, every other one its old. -/
theorem State.tileAt_setTile {s : State} (hs : Canonical s) (c p : Nat) (x : Tile) (c' p' : Nat) :
    (s.setTile c p x).tileAt c' p' = if (c', p') = (c, p) then x else s.tileAt c' p' := by
  rw [State.tileAt, State.setTile, State.cluster_setCluster hs.clusters]
  have hwf := (smapWf_iff.mp (hs.tiles c)).1
  by_cases hc : c' = c
  · subst hc
    by_cases hp : p' = p
    · subst hp
      rw [if_pos rfl, if_pos rfl, smapGet_set_self hwf]
    · rw [if_pos rfl, if_neg (fun e => hp (Prod.mk.inj e).2), smapGet_set_ne hwf hp, State.tileAt]
  · rw [if_neg hc, if_neg (fun e => hc (Prod.mk.inj e).1), State.tileAt]

/-- A mapped window entry names its physical tile (R208). -/
theorem State.ptile_mapped {s : State} {j p : Nat} (h : s.task.window j = some p) : s.ptile j = .ok p := by
  rw [State.ptile, h]

/-- A tile that no job and no load holds is not waited for (R209). -/
theorem State.tileWait_free {s : State} {p : Nat} {writes : Bool} (h : s.tileBusy s.task.cluster p writes = false) :
    s.tileWait p writes = .ok () := by
  rw [State.tileWait, h]
  rfl

end Sys2Proof.Machine
end

section
/-! CERTIFICATE. Fills and moves of tiles (R217, R219). -/

namespace Sys2Proof.Machine

open Sys2Proof Sys2Proof.Claims

/-- The instruction `i` leaves in physical tile p of the task's cluster a tile that satisfies `q`, and changes nothing else. -/
def FillsTile (o : Ops) (s : State) (p : Nat) (i : Instr) (q : Tile → Prop) : Prop :=
  ∃ t, exec i s = .next t ∧ q (t.tileAt s.task.cluster p) ∧
    (∀ c' p', (c', p') ≠ (s.task.cluster, p) → t.tileAt c' p' = s.tileAt c' p') ∧ Advanced o s t ∧ PortsTaken o false s t ∧
    CoresAfter false s t ∧ t.task = { s.task with pc := t.task.pc, ports := t.task.ports, wait := .none } ∧
    t = { s with task := t.task, cores := t.cores, clusters := t.clusters } ∧ SameMemory s t

/-- An instruction that writes one tile of the task's cluster, takes the words of its source positions and completes. -/
theorem fillsTile_of_setTile {i : Instr} {o : Ops} {s : State} {p : Nat} {x : Tile} {q : Tile → Prop} (hs : Canonical s)
    (he : exec i s = .next (((s.setTile s.task.cluster p x).take o).advance o)) (hq : q x) : FillsTile o s p i q := by
  obtain ⟨cs, ps, htake⟩ := State.take_eq (s.setTile s.task.cluster p x) o
  have htile (c' p' : Nat) : (((s.setTile s.task.cluster p x).take o).advance o).tileAt c' p' =
      if (c', p') = (s.task.cluster, p) then x else s.tileAt c' p' := by
    rw [← State.tileAt_setTile hs, htake]
    rfl
  refine ⟨_, he, ?_, fun c' p' hne => ?_, ?_, fun n => ?_, ?_, ?_, ?_, ?_⟩
  · rw [htile, if_pos rfl]
    exact hq
  · rw [htile, if_neg hne]
  · rw [Advanced, htake]
    rfl
  · change (((s.setTile s.task.cluster p x).take o).task.port n).pb = _ ∧ (((s.setTile s.task.cluster p x).take o).task.port n).queue = _
    rw [take_port]
    exact ⟨rfl, rfl⟩
  · exact (take_onlyLog (s := s.setTile s.task.cluster p x) hs.cores o).coresAfter
  · rw [htake]
    rfl
  · rw [htake]
    rfl
  · rw [htake]
    exact ⟨fun _ => rfl, fun _ => rfl⟩

/-- The tile that TFILL makes of the word x (R217). -/
def filledTile (f : Fmt) (x : Word) : Tile :=
  { rows := BitVec.ofNat 16384 (fillRow (fmtBits f) (16384 / fmtBits f) (x.toNat % 2 ^ fmtBits f))
    scales := BitVec.ofNat 1024 (fillRow 8 128 (if f.isBlock then x.extractLsb' 8 8 else 0 : BitVec 8).toNat)
    tag := f
    special := if isSpecial f (if f.isBlock then x.extractLsb' 8 8 else 0) (x.toNat % 2 ^ fmtBits f) then BitVec.allOnes 32 else 0 }

theorem elemAt_filledTile (f : Fmt) (x : Word) {i j : Nat} (hi : i < 32) (hj : j < tileCols f) :
    elemAt ((filledTile f x).row i) (fmtBits f) j = x.toNat % 2 ^ fmtBits f := by
  have hcols : 16384 / fmtBits f = 32 * tileCols f := by cases f <;> rfl
  rw [row_of_ofNat rfl hi, ← fmtBits_mul_tileCols f, elemAt_elemAt _ i hj, hcols, elemAt_fillRow _ (by nlinarith), Nat.mod_mod]

theorem scale_filledTile (f : Fmt) (x : Word) {i b : Nat} (hi : i < 32) (hb : b < 4) :
    (filledTile f x).scale i b = if f.isBlock then x.extractLsb' 8 8 else 0 := by
  apply BitVec.eq_of_toNat_eq
  rw [scale_of_ofNat rfl hi hb, elemAt_fillRow _ (by omega), Nat.mod_eq_of_lt (BitVec.isLt _)]

theorem execTfill_eq {o : Ops} {s : State} {p : Nat} {x : Word} (hw : s.task.window o.d.toNat = some p) (hx : s.srcA o = .ok x)
    (hp : s.tileBusy s.task.cluster p true = false) :
    exec (.tfill o) s = .next (((s.setTile s.task.cluster p (filledTile o.x.tag x)).take o).advance o) := by
  change execTfill o s = _
  simp only [execTfill, State.ptile_mapped hw, hx, State.tileWait_free hp, bind, Except.bind]
  rfl

theorem execTzero_eq {o : Ops} {s : State} {p : Nat} (hw : s.task.window o.d.toNat = some p)
    (hp : s.tileBusy s.task.cluster p true = false) :
    exec (.tzero o) s = .next ((s.setTile s.task.cluster p { tag := o.x.tag }).advance o) := by
  change execTzero o s = _
  simp only [execTzero, State.ptile_mapped hw, State.tileWait_free hp, bind, Except.bind, State.run_eq, State.finish_ok]

theorem execTmov_eq {o : Ops} {s : State} {p q : Nat} (hd : s.task.window o.d.toNat = some p) (ha : s.task.window o.a.toNat = some q)
    (hq : s.tileBusy s.task.cluster q false = false) (hp : s.tileBusy s.task.cluster p true = false) :
    exec (.tmov o) s = .next ((s.setTile s.task.cluster p (s.tileAt s.task.cluster q)).advance o) := by
  change execTmov o s = _
  simp only [execTmov, State.ptile_mapped hd, State.ptile_mapped ha, State.tileWait_free hq, State.tileWait_free hp, bind, Except.bind,
    State.run_eq, State.finish_ok]

/-- TZERO, TFILL and TMOV write the tile that d names and nothing else. -/
theorem tileFills : TileFills := by
  intro o s p hs hb hc hw
  refine ⟨fun ha hp => ?_, fun x hx hp => ?_, fun q ha hq hfree hp => ?_⟩
  · refine fillsTile_of_setTile (q := (· = { tag := o.x.tag })) hs ?_ rfl
    rw [execTzero_eq hw hp, take_of_no_port _ ha hb hc]
  · obtain ⟨t, he, ht, hframe⟩ := fillsTile_of_setTile (q := (· = filledTile o.x.tag x)) hs (execTfill_eq hw hx hp) rfl
    refine ⟨t, he, ?_, hframe⟩
    rw [ht]
    exact ⟨rfl, fun i j hi hj => elemAt_filledTile _ x hi hj, fun i b hi hb => scale_filledTile _ x hi hb, rfl⟩
  · refine fillsTile_of_setTile (q := (· = s.tileAt s.task.cluster q)) hs ?_ rfl
    rw [execTmov_eq hw hq hfree hp, take_of_no_port _ ha hb hc]

end Sys2Proof.Machine
end

section
/-! CERTIFICATE. The weight load (R221, R222). -/

namespace Sys2Proof.Machine

open Sys2Proof Sys2Proof.Claims

/-! ### The checks of the weight load -/

/-- A list of checks that all answer gives one answer for each. -/
theorem length_of_mapM_ok {α β ε : Type} {f : α → Except ε β} {l : List α} {r : List β} (h : l.mapM f = .ok r) : r.length = l.length := by
  induction l generalizing r with
  | nil => cases h; rfl
  | cons a l ih =>
    rw [List.mapM_cons] at h
    simp only [bind, Except.bind] at h
    split at h
    · cases h
    · split at h
      · cases h
      · next hr => cases h; rw [List.length_cons, List.length_cons, ih hr]

/-- Accesses whose checks all pass have one location each. -/
theorem State.locs_length {s : State} {n : Want} {ea : Word} {stride k : Nat} {ls : List (Word × Loc)} (h : s.locs n ea stride k = .ok ls) :
    ls.length = k := by
  simp only [State.locs, bind, Except.bind] at h
  split at h
  · cases h
  · next hls =>
    split at h
    · cases h
    · cases h
      rw [length_of_mapM_ok hls, List.length_range]

/-- A load of an operand record that passes its checks answers with the bytes. -/
theorem State.load_eq {s : State} {n : Want} {va : Word} {bytes align : Nat} {l : Loc} (ha : va.toNat % align = 0)
    (hl : s.access { n with r := true } va = .ok l) (hh : s.notHaltered l = .ok ()) (hp : s.locPoisoned l bytes = false) :
    s.load n va bytes align = .ok (s.readLoc l bytes) := by
  simp only [State.load, State.loadLoc, need_ok.mpr (beq_iff_eq.mpr ha), hl, hh, hp, bind, Except.bind]
  rfl

/-- Accesses without an uncorrectable error leave no data error (R240). -/
theorem State.noteErrors_clean {s : State} {n : Nat} {ls : List (Word × Loc)} (h : ∀ l ∈ ls, s.locPoisoned l.2 n = false) :
    s.noteErrors n ls = s := by
  rw [State.noteErrors, List.find?_eq_none.mpr fun l hl => by rw [h l hl]; exact Bool.false_ne_true]

/-! ### The units that the weight load writes -/

/-- A weight buffer after the bytes and masks of some units, by their places from unit a on. -/
def loadUnits (buf : Smap WUnit) (a : Nat) (us : List (Nat × Nat × Word)) : Smap WUnit :=
  us.foldl (fun m u => smapSet {} m (a + u.1) { bytes := BitVec.ofNat 256 u.2.1, mask := u.2.2 }) buf

/-- A unit that the load does not name is as before. -/
theorem smapGet_loadUnits_ne {buf : Smap WUnit} (h : smapWf {} buf = true) {a k : Nat} {us : List (Nat × Nat × Word)}
    (hk : ∀ u ∈ us, k ≠ a + u.1) : smapGet {} (loadUnits buf a us) k = smapGet {} buf k := by
  induction us generalizing buf with
  | nil => rfl
  | cons u us ih =>
    have hset := smapGet_set_ne (d := {}) (smapWf_iff.mp h).1 (hk u List.mem_cons_self) { bytes := BitVec.ofNat 256 u.2.1, mask := u.2.2 }
    rw [loadUnits, List.foldl_cons, ← hset]
    exact ih (smapSet_wf h _ _) fun v hv => hk v (List.mem_cons_of_mem _ hv)

/-- A unit that the load names once holds what it brings. -/
theorem smapGet_loadUnits_mem {buf : Smap WUnit} (h : smapWf {} buf = true) {a : Nat} {us : List (Nat × Nat × Word)}
    (hus : (us.map (·.1)).Nodup) {u : Nat × Nat × Word} (hu : u ∈ us) :
    smapGet {} (loadUnits buf a us) (a + u.1) = { bytes := BitVec.ofNat 256 u.2.1, mask := u.2.2 } := by
  induction us generalizing buf with
  | nil => cases hu
  | cons v us ih =>
    rw [List.map_cons, List.nodup_cons] at hus
    obtain ⟨hv, hus⟩ := hus
    rw [loadUnits, List.foldl_cons]
    obtain rfl | hu := List.mem_cons.mp hu
    · have hkeep := smapGet_loadUnits_ne (smapSet_wf h (a + u.1) { bytes := BitVec.ofNat 256 u.2.1, mask := u.2.2 })
        (a := a) (k := a + u.1) (us := us) fun w hw e => hv (List.mem_map.mpr ⟨w, hw, by omega⟩)
      exact hkeep.trans (smapGet_set_self (smapWf_iff.mp h).1 _ _)
    · exact ih (smapSet_wf h _ _) hus hu

/-- The units of a panel with their places in it, their bytes and their masks. -/
def panelUnits (s : State) (ls : List (Word × Loc)) (masks : List Word) : List (Nat × Nat × Word) :=
  (List.range ls.length).zip ((ls.map fun l => s.readLoc l.2 32).zip masks)

theorem panelUnits_mem {s : State} {ls : List (Word × Loc)} {masks : List Word} (hm : masks.length = ls.length) {k : Nat}
    (hk : k < ls.length) : (k, s.readLoc ls[k].2 32, masks[k]) ∈ panelUnits s ls masks := by
  rw [panelUnits, List.mem_iff_getElem]
  exact ⟨k, by simp [hm, hk], by simp⟩

theorem panelUnits_places {s : State} {ls : List (Word × Loc)} {masks : List Word} (hm : masks.length = ls.length) :
    (panelUnits s ls masks).map (·.1) = List.range ls.length := by
  rw [panelUnits]
  exact List.map_fst_zip (by simp [hm])

/-- The state whose cluster of the executing task holds a panel from unit a of its weight buffer on. -/
def State.withPanel (s : State) (a : Nat) (ls : List (Word × Loc)) (masks : List Word) : State :=
  s.setCluster s.task.cluster { s.cluster s.task.cluster with
    wbuf := loadUnits (s.cluster s.task.cluster).wbuf a (panelUnits s ls masks) }

section

variable {s : State} (hs : Canonical s) {a : Nat} {ls : List (Word × Loc)} {masks : List Word} (hm : masks.length = ls.length)

include hs

theorem State.withPanel_cluster_self : (s.withPanel a ls masks).cluster s.task.cluster =
    { s.cluster s.task.cluster with wbuf := loadUnits (s.cluster s.task.cluster).wbuf a (panelUnits s ls masks) } := by
  rw [State.withPanel, State.cluster_setCluster hs.clusters, if_pos rfl]

theorem State.withPanel_tileAt (c p : Nat) : (s.withPanel a ls masks).tileAt c p = s.tileAt c p := by
  by_cases hc : c = s.task.cluster
  · subst hc
    rw [State.tileAt, State.withPanel_cluster_self hs, State.tileAt]
  · rw [State.tileAt, State.withPanel, State.cluster_setCluster hs.clusters, if_neg hc, State.tileAt]

include hm

theorem State.withPanel_bytes {k : Nat} (hk : k < ls.length) :
    (((s.withPanel a ls masks).cluster s.task.cluster).unit (a + k)).bytes = BitVec.ofNat 256 (s.readLoc ls[k].2 32) := by
  have hnodup : ((panelUnits s ls masks).map (·.1)).Nodup := panelUnits_places (s := s) hm ▸ List.nodup_range
  rw [State.withPanel_cluster_self hs, Cluster.unit, smapGet_loadUnits_mem (hs.wbuf _) hnodup (panelUnits_mem hm hk)]

theorem State.withPanel_unit_ne {u : Nat} (hu : u < a ∨ a + ls.length ≤ u) :
    ((s.withPanel a ls masks).cluster s.task.cluster).unit u = (s.cluster s.task.cluster).unit u := by
  rw [State.withPanel_cluster_self hs, Cluster.unit, smapGet_loadUnits_ne (hs.wbuf _), Cluster.unit]
  intro v hv hne
  have hplace : v.1 ∈ List.range ls.length := panelUnits_places (s := s) hm ▸ List.mem_map_of_mem hv
  have := List.mem_range.mp hplace
  omega

end

/-! ### The instruction -/

/-- WLD with every check passed loads the panel with some masks, does its acquire and delivers the number of units. -/
theorem execWld_eq {o : Ops} {s : State} {a b : Word} {l0 : Loc} {ls : List (Word × Loc)} (ha : s.srcA o = .ok a) (hb : s.srcB o = .ok b)
    (hload : s.load {} b 32 32 = .ok (s.readLoc l0 32)) (hp : ∀ l ∈ ls, s.locPoisoned l.2 32 = false)
    (hclass : opClass (headTag (BitVec.ofNat 256 (s.readLoc l0 32))) ≠ 0)
    (hls : s.locs { r := true } b 32 (panelSize (BitVec.ofNat 256 (s.readLoc l0 32))) = .ok ls) (hfit : a.toNat + ls.length ≤ 32768)
    (hfree : (s.cluster s.task.cluster).unitReserved a.toNat (a.toNat + ls.length) = false) :
    ∃ masks : List Word, masks.length = ls.length ∧ exec (.wld o) s =
      s.run (.wld o) (((s.withPanel a.toNat ls masks).acquire o).complete o (BitVec.ofNat 64 ls.length)) := by
  have hlen := State.locs_length hls
  have hunits : ls.map (fun l => s.loaded l.2 32) = ls.map fun l => s.readLoc l.2 32 :=
    List.map_congr_left fun l hl => by rw [State.loaded, hp l hl]; rfl
  have hclean (x : Cluster) : (s.setCluster s.task.cluster x).noteErrors 32 ls = s.setCluster s.task.cluster x :=
    State.noteErrors_clean hp
  change ∃ masks : List Word, _ ∧ execWld o s = _
  rw [← hlen] at hls
  simp only [execWld, ha, hb, hload, ← hlen, hls, hunits, need_ok.mpr (bne_iff_ne.mpr hclass), need_ok.mpr (decide_eq_true hfit),
    need_ok.mpr (Bool.not_eq_true' _ |>.mpr hfree), hclean, bind, Except.bind]
  refine ⟨_, ?_, rfl⟩
  -- one mask for the header, four for the scales of a block format, one for each stored sector
  rw [hlen, panelSize, popBelow]
  simp only [List.length_cons, List.length_append, List.length_replicate, List.length_map]
  split <;> omega

/-- An acquire leaves the task, the clusters and memory (R147). -/
theorem State.acquire_keeps (s : State) (o : Ops) :
    (s.acquire o).task = s.task ∧ (∀ k, (s.acquire o).cluster k = s.cluster k) ∧ SameMemory s (s.acquire o) := by
  obtain ⟨cs, h⟩ := State.acquire_eq s o
  rw [h]
  exact ⟨rfl, fun _ => rfl, fun _ => rfl, fun _ => rfl⟩

/-- The end of an instruction that delivers `v` to a register, from a state whose task is that of `s`. -/
theorem wr_take_advance_frame {s u : State} (o : Ops) (v : Word) (htask : u.task = s.task) :
    RegTakes o s (((u.wr o.d v).take o).advance o) v ∧ Advanced o s (((u.wr o.d v).take o).advance o) ∧
      PortsTaken o false s (((u.wr o.d v).take o).advance o) ∧ (∀ k, (((u.wr o.d v).take o).advance o).cluster k = u.cluster k) ∧
      SameMemory u (((u.wr o.d v).take o).advance o) := by
  rw [advance_eq_goto, take_pc, ← flag_zero u, take_wr_eq_endAt, flag_zero u]
  refine ⟨⟨endAt_wr_rd_self u o v _ _, fun n hn => ?_⟩, ?_, fun q => ?_, fun k => ?_, endAt_onlyTask.2⟩
  · rw [endAt_wr_rd, if_neg fun h => hn h.1, htask]
  · rw [Advanced, endAt_task, ← htask]
    simp
  · rw [← htask]
    exact endAt_portsTaken q
  · rw [endAt_onlyTask.1]
    rfl

/-- WLD leaves the units of the panel in the weight buffer, their number in d, and every other unit, tile and byte as it was. -/
theorem weightLoad : WeightLoad := by
  intro o s a b l0 ls hs hpd ha hb halign hl0 hh0 head size c hp0 hp hclass hls hfit hfree
  have hlen : ls.length = size := State.locs_length hls
  have hload := State.load_eq (n := {}) halign hl0 hh0 hp0
  rw [← hlen] at hfit hfree ⊢
  obtain ⟨masks, hm, hexec⟩ := execWld_eq ha hb hload hp hclass hls hfit hfree
  rw [State.complete_register _ _ _ hpd, State.run_eq, State.finish_ok] at hexec
  obtain ⟨htask, hclusters, hmem⟩ := State.acquire_keeps (s.withPanel a.toNat ls masks) o
  obtain ⟨hreg, hpc, hports, hends, hkeep⟩ := wr_take_advance_frame o (BitVec.ofNat 64 ls.length) htask
  refine ⟨_, hexec, hreg, fun k hk => ?_, fun k hk => ?_, fun c' p => ?_, hpc, hports, ?_⟩
  · rw [hends, hclusters]
    exact State.withPanel_bytes hs hm hk
  · rw [hends, hclusters]
    exact State.withPanel_unit_ne hs hm hk
  · rw [State.tileAt, hends, hclusters]
    exact State.withPanel_tileAt hs c' p
  · exact ⟨fun x => (hkeep.1 x).trans (hmem.1 x), fun x => (hkeep.2 x).trans (hmem.2 x)⟩

end Sys2Proof.Machine
end

section
/-! SUPPORT. Conversions of tiles (R218): what TCVT makes of each column and each block, and which draw each column takes. -/

namespace Sys2Proof.Machine

open Sys2Proof Sys2Proof.Claims

/-! ### Folds and lists of pieces -/

/-- A fold over a range whose every step leads from one known value to the next. -/
theorem foldl_range_eq {α : Type} {step : α → Nat → α} {init : α} {n : Nat} (value : Nat → α) (h0 : value 0 = init)
    (hstep : ∀ k, k < n → step (value k) k = value (k + 1)) : (List.range n).foldl step init = value n := by
  induction n with
  | zero => exact h0.symm
  | succ n ih =>
    rw [List.range_succ, List.foldl_append, ih fun k hk => hstep k (by omega)]
    exact hstep n (by omega)

/-- Flags merged into `a` are `a` merged with the flags. -/
theorem foldl_or_init {β : Type} (f : β → BitVec 6) (a : BitVec 6) (l : List β) :
    l.foldl (fun a x => a ||| f x) a = a ||| l.foldl (fun a x => a ||| f x) 0 := by
  induction l generalizing a with
  | nil => exact (BitVec.or_zero).symm
  | cons x l ih =>
    rw [List.foldl_cons, ih (a ||| f x), List.foldl_cons, ih (0 ||| f x), BitVec.or_assoc, show (0 : BitVec 6) ||| f x = f x from BitVec.zero_or]

/-- Element j of piece b, where the pieces of 32 elements each stand one behind the other. -/
theorem getD_flatMap_range {piece : Nat → List Nat} {n b j : Nat} (hlen : ∀ b, b < n → (piece b).length = 32) (hb : b < n) (hj : j < 32) :
    ((List.range n).flatMap piece).getD (32 * b + j) 0 = (piece b).getD j 0 := by
  induction n with
  | zero => omega
  | succ n ih =>
    have hall : ∀ m, m ≤ n → ((List.range m).flatMap piece).length = 32 * m := by
      intro m
      induction m with
      | zero => intro _; rfl
      | succ m ihm =>
        intro hm
        rw [List.range_succ, List.flatMap_append, List.length_append, ihm (by omega), List.flatMap_singleton, hlen m (by omega)]
        ring
    rw [List.range_succ, List.flatMap_append, List.flatMap_singleton]
    by_cases hbn : b = n
    · subst hbn
      rw [List.getD_append_right _ _ _ _ (by rw [hall b le_rfl]; omega), hall b le_rfl, Nat.add_sub_cancel_left]
    · rw [List.getD_append _ _ _ _ (by rw [hall n le_rfl]; omega)]
      exact ih (fun c hc => hlen c (by omega)) (by omega)

/-- The m draws behind the first n. -/
theorem take_drop_eq_map_getD {ds : List (BitVec 16)} {n m : Nat} (h : n + m ≤ ds.length) :
    (ds.drop n).take m = (List.range m).map fun j => ds.getD (n + j) 0 := by
  apply List.ext_getElem
  · simp; omega
  · intro j hj _
    have hj' : n + j < ds.length := by simp at hj; omega
    simp [List.getElem?_eq_getElem hj']

theorem headD_drop (ds : List (BitVec 16)) (n : Nat) : (ds.drop n).headD 0 = ds.getD n 0 := by
  simp [List.headD_eq_head?_getD, List.head?_drop]

/-! ### The columns of TCVT -/

/-- The part P that TCVT names. -/
def tcvtPart (o : Ops) : Nat := (o.x.mod.extractLsb' 2 3).toNat

/-- The column of a source of format f that gives column j of the destination. -/
def tcvtFrom (o : Ops) (f : Fmt) (j : Nat) : Option Nat :=
  if tileCols o.x.tag ≤ tileCols f then some (tcvtPart o * tileCols o.x.tag + j)
  else if tcvtPart o * tileCols f ≤ j ∧ j < tcvtPart o * tileCols f + tileCols f then some (j - tcvtPart o * tileCols f) else none

/-- The first column of a row that draws. -/
def tcvtFirst (o : Ops) (f : Fmt) : Nat :=
  if tileCols o.x.tag ≤ tileCols f ∨ tcvtPart o = 0 then 0
  else if o.x.tag.isBlock then tcvtPart o * tileCols f / 32 * 32 else tcvtPart o * tileCols f

/-- How many columns of a row draw. -/
def tcvtDrawn (o : Ops) (f : Fmt) : Nat :=
  if tileCols o.x.tag ≤ tileCols f ∨ tcvtPart o = 0 then tileCols o.x.tag
  else if o.x.tag.isBlock then (tileCols f + 31) / 32 * 32 else tileCols f

/-- The draws of a row that the model counts (R218, R37). -/
theorem tcvtDraws_eq (o : Ops) (f : Fmt) : tcvtDraws o f = tcvtDrawn o f := by
  have hpart : o.x.mod.extractLsb' 2 3 = 0 ↔ tcvtPart o = 0 := by rw [tcvtPart, ← BitVec.toNat_inj]; rfl
  rw [tcvtDraws, tcvtDrawn]
  simp only [hpart]

/-- The part lies inside the destination where that has more columns. -/
def TcvtFits (o : Ops) (f : Fmt) : Prop := tileCols o.x.tag ≤ tileCols f ∨ tcvtPart o * tileCols f + tileCols f ≤ tileCols o.x.tag

theorem tcvtFits_of_lt {o : Ops} {f : Fmt}
    (h : ¬ tileCols o.x.tag ≤ tileCols f → tcvtPart o < tileCols o.x.tag / tileCols f) : TcvtFits o f := by
  by_cases hn : tileCols o.x.tag ≤ tileCols f
  · exact .inl hn
  · refine .inr ?_
    rw [← Nat.succ_mul]
    exact (Nat.mul_le_mul_right _ (h hn)).trans (Nat.div_mul_le_self _ _)

/-- How many draws the columns below m take. -/
def tcvtTaken (o : Ops) (f : Fmt) (m : Nat) : Nat := min (m - tcvtFirst o f) (tcvtDrawn o f)

theorem tileCols_cases (f : Fmt) : tileCols f = 8 ∨ tileCols f = 16 ∨ tileCols f = 32 ∨ tileCols f = 64 ∨ tileCols f = 128 := by
  cases f <;> decide

theorem tileCols_of_isBlock {f : Fmt} (h : f.isBlock = true) : tileCols f = 128 ∧ fmtBits f = 4 := by
  cases f with
  | mxfp4 => exact ⟨rfl, rfl⟩
  | ob4 => exact ⟨rfl, rfl⟩
  | _ => cases h

theorem tcvtTaken_zero (o : Ops) (f : Fmt) : tcvtTaken o f 0 = 0 := by simp [tcvtTaken]

/-- A row takes all its draws. -/
theorem tcvtTaken_all {o : Ops} {f : Fmt} (h : TcvtFits o f) : tcvtTaken o f (tileCols o.x.tag) = tcvtDrawn o f := by
  have hcols := tileCols_cases f
  rw [tcvtTaken, tcvtFirst, tcvtDrawn]
  obtain h | h := h
  · simp [h]
  · generalize tcvtPart o * tileCols f = p at h ⊢
    split
    · omega
    · split
      · next hb =>
        have := (tileCols_of_isBlock hb).1
        omega
      · omega

section

variable {o : Ops} {f : Fmt} {j : Nat}

/-- A column that is converted, or cleared for P = 0, takes one draw. -/
theorem tcvtTaken_succ (hb : o.x.tag.isBlock = false) (hj : j < tileCols o.x.tag) (h : tcvtPart o = 0 ∨ tcvtFrom o f j ≠ none) :
    tcvtTaken o f j = j - tcvtFirst o f ∧ tcvtTaken o f (j + 1) = tcvtTaken o f j + 1 := by
  rw [tcvtTaken, tcvtTaken, tcvtFirst, tcvtDrawn, hb]
  split
  · omega
  · next hn =>
    obtain ⟨hwide, hpart⟩ := not_or.mp hn
    have hin : tcvtPart o * tileCols f ≤ j ∧ j < tcvtPart o * tileCols f + tileCols f := by
      by_contra hout
      exact (h.resolve_left hpart) (by rw [tcvtFrom, if_neg hwide, if_neg hout])
    simp only [Bool.false_eq_true, if_false]
    omega

/-- A column that keeps its bits takes none. -/
theorem tcvtTaken_succ_kept (hb : o.x.tag.isBlock = false) (hpart : tcvtPart o ≠ 0) (h : tcvtFrom o f j = none) :
    tcvtTaken o f (j + 1) = tcvtTaken o f j := by
  have hwide : ¬ tileCols o.x.tag ≤ tileCols f := fun hn => by rw [tcvtFrom, if_pos hn] at h; cases h
  have hout : ¬ (tcvtPart o * tileCols f ≤ j ∧ j < tcvtPart o * tileCols f + tileCols f) := fun hin => by
    rw [tcvtFrom, if_neg hwide, if_pos hin] at h
    cases h
  rw [tcvtTaken, tcvtTaken, tcvtFirst, tcvtDrawn, hb, if_neg (not_or.mpr ⟨hwide, hpart⟩), if_neg (not_or.mpr ⟨hwide, hpart⟩)]
  simp only [Bool.false_eq_true, if_false]
  omega

end

/-- The columns of block b. -/
def blockCols (b : Nat) : List Nat := (List.range 32).map (32 * b + ·)

/-- Is block b kept: the part, beyond 0, touches none of its columns? -/
abbrev tcvtKeeps (o : Ops) (f : Fmt) (b : Nat) : Prop := tcvtPart o ≠ 0 ∧ (blockCols b).all (fun j => (tcvtFrom o f j).isNone) = true

/-- A block is kept where its columns and those of the part, in a wider destination, are apart. -/
theorem tcvtKeeps_iff {o : Ops} {f : Fmt} {b : Nat} : tcvtKeeps o f b ↔ tcvtPart o ≠ 0 ∧ ¬ tileCols o.x.tag ≤ tileCols f ∧
    (32 * b + 32 ≤ tcvtPart o * tileCols f ∨ tcvtPart o * tileCols f + tileCols f ≤ 32 * b) := by
  have hcols := tileCols_cases f
  simp only [tcvtKeeps, blockCols, List.all_eq_true, List.forall_mem_map, List.mem_range, Option.isNone_iff_eq_none, tcvtFrom]
  refine and_congr_right fun _ => ⟨fun h => ?_, fun ⟨hwide, hout⟩ j hj => ?_⟩
  · have hwide : ¬ tileCols o.x.tag ≤ tileCols f := fun hn => by
      have := h 0 (by omega)
      rw [if_pos hn] at this
      cases this
    refine ⟨hwide, ?_⟩
    by_contra hmeet
    have := h (max (tcvtPart o * tileCols f) (32 * b) - 32 * b) (by omega)
    rw [if_neg hwide, if_pos (by omega)] at this
    cases this
  · rw [if_neg hwide, if_neg (by omega)]

section

variable {o : Ops} {f : Fmt} {b : Nat}

/-- A block that is built takes 32 draws. -/
theorem tcvtTaken_block (hblock : o.x.tag.isBlock = true) (hb : b < 4) (h : ¬ tcvtKeeps o f b) :
    (∀ j, tcvtTaken o f (32 * b) + j = 32 * b + j - tcvtFirst o f) ∧ tcvtTaken o f (32 * (b + 1)) = tcvtTaken o f (32 * b) + 32 := by
  have hcols := tileCols_cases f
  have hed := (tileCols_of_isBlock hblock).1
  rw [tcvtTaken, tcvtTaken, tcvtFirst, tcvtDrawn, hblock]
  by_cases hn : tileCols o.x.tag ≤ tileCols f ∨ tcvtPart o = 0
  · simp only [if_pos hn]
    exact ⟨fun j => by omega, by omega⟩
  · obtain ⟨hwide, hpart⟩ := not_or.mp hn
    have hmeet : tcvtPart o * tileCols f < 32 * b + 32 ∧ 32 * b < tcvtPart o * tileCols f + tileCols f := by
      by_contra hout
      exact h (tcvtKeeps_iff.mpr ⟨hpart, hwide, by omega⟩)
    simp only [if_neg hn, if_true]
    obtain e | e | e | e | e := hcols <;> simp only [e] at hmeet ⊢ <;> exact ⟨fun j => by omega, by omega⟩

/-- A block that is kept takes none. -/
theorem tcvtTaken_block_kept (hblock : o.x.tag.isBlock = true) (h : tcvtKeeps o f b) :
    tcvtTaken o f (32 * (b + 1)) = tcvtTaken o f (32 * b) := by
  have hcols := tileCols_cases f
  obtain ⟨hpart, hwide, hout⟩ := tcvtKeeps_iff.mp h
  rw [tcvtTaken, tcvtTaken, tcvtFirst, tcvtDrawn, hblock, if_neg (not_or.mpr ⟨hwide, hpart⟩), if_neg (not_or.mpr ⟨hwide, hpart⟩)]
  simp only [if_true]
  obtain e | e | e | e | e := hcols <;> simp only [e] at hout ⊢ <;> omega

end

end Sys2Proof.Machine
end

section
/-! SUPPORT. One row of TCVT, and the rows of a tile (R218). -/

namespace Sys2Proof.Machine

open Sys2Proof Sys2Proof.Claims

/-! ### What a row holds -/

section

variable (o : Ops) (src old : Tile) (draw : Nat → BitVec 16) (i : Nat)

/-- Column j of row i where the destination is no block format: its code and its flags. -/
def tcvtElem (j : Nat) : Nat × BitVec 6 :=
  match tcvtFrom o src.tag j with
  | some k => convert src.tag o.x.tag (satOf o) o.x.rm (draw j) (src.scale i (k / 32)) (src.elem i k)
  | none => (if tcvtPart o = 0 then 0 else old.elem i j, 0)

/-- Block b of row i: its scale byte, its codes and its flags. -/
def tcvtBlock (b : Nat) : BitVec 8 × List Nat × BitVec 6 :=
  if tcvtKeeps o src.tag b then
    (old.scale i b, (blockCols b).map (old.elem i), 0)
  else toBlock o.x.tag o.x.c.toNat o.x.rm ((blockCols b).map draw) ((blockCols b).map fun j =>
    match tcvtFrom o src.tag j with
    | some k => src.num i k
    | none => if tcvtPart o = 0 then .fin false 0 0 else old.num i j)

/-- The bits of row i. -/
def tcvtBits : Nat :=
  if o.x.tag.isBlock then packElems 4 ((List.range 4).flatMap fun b => (tcvtBlock o src old draw i b).2.1)
  else packElems (fmtBits o.x.tag) ((List.range (tileCols o.x.tag)).map fun j => (tcvtElem o src old draw i j).1)

/-- The scale bytes of row i. -/
def tcvtScales : Nat :=
  if o.x.tag.isBlock then packElems 8 ((List.range 4).map fun b => (tcvtBlock o src old draw i b).1.toNat) else 0

/-- The flags of row i, merged into `a`. -/
def tcvtFlags (a : BitVec 6) : BitVec 6 :=
  if o.x.tag.isBlock then (List.range 4).foldl (fun a b => a ||| (tcvtBlock o src old draw i b).2.2) a
  else (List.range (tileCols o.x.tag)).foldl (fun a j => a ||| (tcvtElem o src old draw i j).2) a

end

theorem length_blockCols (b : Nat) : (blockCols b).length = 32 := by rw [blockCols, List.length_map, List.length_range]

/-- A block of as many values as it has draws has as many codes. -/
theorem length_toBlock_codes (t : Fmt) (ty : Nat) (mode : Rm) (draws : List (BitVec 16)) (vs : List FNum) (h : vs.length = draws.length) :
    (toBlock t ty mode draws vs).2.1.length = vs.length := by
  rw [toBlock]
  split <;> simp [h]

/-- Every block of a row has 32 codes. -/
theorem length_tcvtBlock_codes (o : Ops) (src old : Tile) (draw : Nat → BitVec 16) (i b : Nat) :
    (tcvtBlock o src old draw i b).2.1.length = 32 := by
  rw [tcvtBlock]
  split
  · rw [List.length_map, length_blockCols]
  · rw [length_toBlock_codes _ _ _ _ _ (by rw [List.length_map, List.length_map]), List.length_map, length_blockCols]

theorem tcvtFlags_eq_or (o : Ops) (src old : Tile) (draw : Nat → BitVec 16) (i : Nat) (a : BitVec 6) :
    tcvtFlags o src old draw i a = a ||| tcvtFlags o src old draw i 0 := by
  rw [tcvtFlags, tcvtFlags]
  split <;> exact foldl_or_init _ _ _

theorem or_no_flags (a : BitVec 6) : a ||| 0 = a := BitVec.or_zero

/-! ### The model's row -/

/-- The draw that column j of a row takes from the draws `ds` of the row. -/
def rowDraw (o : Ops) (f : Fmt) (ds : List (BitVec 16)) (j : Nat) : BitVec 16 := ds.getD (j - tcvtFirst o f) 0

section

variable (o : Ops) (src old : Tile) (i : Nat) (ds : List (BitVec 16))

/-- The codes and the flags of the columns below m, and the draws that they leave. -/
def elemsBefore (m : Nat) : List Nat × BitVec 6 × List (BitVec 16) :=
  ((List.range m).map fun j => (tcvtElem o src old (rowDraw o src.tag ds) i j).1,
    (List.range m).foldl (fun a j => a ||| (tcvtElem o src old (rowDraw o src.tag ds) i j).2) 0, ds.drop (tcvtTaken o src.tag m))

/-- The codes, the scales and the flags of the blocks below m, and the draws that they leave. -/
def blocksBefore (m : Nat) : List Nat × List Nat × BitVec 6 × List (BitVec 16) :=
  ((List.range m).flatMap fun b => (tcvtBlock o src old (rowDraw o src.tag ds) i b).2.1,
    (List.range m).map fun b => (tcvtBlock o src old (rowDraw o src.tag ds) i b).1.toNat,
    (List.range m).foldl (fun a b => a ||| (tcvtBlock o src old (rowDraw o src.tag ds) i b).2.2) 0,
    ds.drop (tcvtTaken o src.tag (32 * m)))

theorem elemsBefore_succ (m : Nat) : elemsBefore o src old i ds (m + 1) =
    ((elemsBefore o src old i ds m).1 ++ [(tcvtElem o src old (rowDraw o src.tag ds) i m).1],
      (elemsBefore o src old i ds m).2.1 ||| (tcvtElem o src old (rowDraw o src.tag ds) i m).2,
      ds.drop (tcvtTaken o src.tag (m + 1))) := by
  simp [elemsBefore, List.range_succ]

theorem blocksBefore_succ (m : Nat) : blocksBefore o src old i ds (m + 1) =
    ((blocksBefore o src old i ds m).1 ++ (tcvtBlock o src old (rowDraw o src.tag ds) i m).2.1,
      (blocksBefore o src old i ds m).2.1 ++ [(tcvtBlock o src old (rowDraw o src.tag ds) i m).1.toNat],
      (blocksBefore o src old i ds m).2.2.1 ||| (tcvtBlock o src old (rowDraw o src.tag ds) i m).2.2,
      ds.drop (tcvtTaken o src.tag (32 * (m + 1)))) := by
  simp [blocksBefore, List.range_succ]

theorem elemsBefore_draws (m : Nat) : (elemsBefore o src old i ds m).2.2 = ds.drop (tcvtTaken o src.tag m) := rfl
theorem blocksBefore_draws (m : Nat) : (blocksBefore o src old i ds m).2.2.2 = ds.drop (tcvtTaken o src.tag (32 * m)) := rfl

end

section

variable {o : Ops} {src old : Tile} {i : Nat} {ds : List (BitVec 16)}

/-- A row where the destination is no block format: each column takes its draw where it is converted or cleared. -/
theorem tcvtRow_of_elems (hb : o.x.tag.isBlock = false) (hfit : TcvtFits o src.tag) :
    tcvtRow o src old i ds = (tcvtBits o src old (rowDraw o src.tag ds) i, tcvtScales o src old (rowDraw o src.tag ds) i,
      tcvtFlags o src old (rowDraw o src.tag ds) i 0, ds.drop (tcvtDrawn o src.tag)) := by
  rw [tcvtRow, tcvtBits, tcvtScales, tcvtFlags, ← tcvtTaken_all hfit]
  simp only [hb, Bool.false_eq_true, if_false]
  rw [foldl_range_eq (elemsBefore o src old i ds)]
  · rfl
  · rw [elemsBefore, tcvtTaken_zero]
    rfl
  · intro j hj
    change (match tcvtFrom o src.tag j with | some k => _ | none => if tcvtPart o = 0 then _ else _) = _
    rw [elemsBefore_succ, tcvtElem]
    cases hfrom : tcvtFrom o src.tag j with
    | some k =>
      obtain ⟨hdraw, htaken⟩ := tcvtTaken_succ hb hj (.inr (by rw [hfrom]; exact Option.some_ne_none k))
      simp only [elemsBefore_draws, headD_drop, List.drop_drop, htaken, hdraw, rowDraw]
    | none =>
      by_cases hpart : tcvtPart o = 0
      · obtain ⟨-, htaken⟩ := tcvtTaken_succ (f := src.tag) hb hj (.inl hpart)
        simp only [if_pos hpart, elemsBefore_draws, List.drop_drop, htaken, or_no_flags]
      · simp only [if_neg hpart, elemsBefore_draws, tcvtTaken_succ_kept hb hpart hfrom, or_no_flags]

/-- A row of blocks: each block that is built takes 32 draws. -/
theorem tcvtRow_of_blocks (hb : o.x.tag.isBlock = true) (hfit : TcvtFits o src.tag) (hds : tcvtDrawn o src.tag ≤ ds.length) :
    tcvtRow o src old i ds = (tcvtBits o src old (rowDraw o src.tag ds) i, tcvtScales o src old (rowDraw o src.tag ds) i,
      tcvtFlags o src old (rowDraw o src.tag ds) i 0, ds.drop (tcvtDrawn o src.tag)) := by
  have hall : tcvtTaken o src.tag (32 * 4) = tcvtDrawn o src.tag := by
    rw [← tcvtTaken_all hfit, (tileCols_of_isBlock hb).1]
  rw [tcvtRow, tcvtBits, tcvtScales, tcvtFlags, ← hall]
  simp only [hb, if_true]
  rw [foldl_range_eq (blocksBefore o src old i ds)]
  · rfl
  · rw [blocksBefore, Nat.mul_zero, tcvtTaken_zero]
    rfl
  · intro b hb4
    change (if tcvtKeeps o src.tag b then _ else _) = _
    rw [blocksBefore_succ, tcvtBlock]
    by_cases hkeep : tcvtKeeps o src.tag b
    · rw [tcvtTaken_block_kept hb hkeep, if_pos hkeep, if_pos hkeep, or_no_flags]
      rfl
    · obtain ⟨hdraw, htaken⟩ := tcvtTaken_block hb hb4 hkeep
      have htake : (ds.drop (tcvtTaken o src.tag (32 * b))).take 32 = (blockCols b).map (rowDraw o src.tag ds) := by
        have hroom : tcvtTaken o src.tag (32 * b) + 32 ≤ ds.length := by
          rw [← htaken]
          exact (min_le_right _ _).trans hds
        rw [take_drop_eq_map_getD hroom, blockCols, List.map_map]
        exact List.map_congr_left fun j _ => by rw [hdraw]; rfl
      rw [if_neg hkeep, if_neg hkeep, blocksBefore_draws, htake, htaken, List.drop_drop]
      rfl

/-- A row of TCVT, from as many draws as it takes. -/
theorem tcvtRow_eq (hfit : TcvtFits o src.tag) (hds : tcvtDrawn o src.tag ≤ ds.length) :
    tcvtRow o src old i ds = (tcvtBits o src old (rowDraw o src.tag ds) i, tcvtScales o src old (rowDraw o src.tag ds) i,
      tcvtFlags o src old (rowDraw o src.tag ds) i 0, ds.drop (tcvtDrawn o src.tag)) := by
  cases hb : o.x.tag.isBlock
  · exact tcvtRow_of_elems hb hfit
  · exact tcvtRow_of_blocks hb hfit hds

end

end Sys2Proof.Machine
end

section
/-! CERTIFICATE. TCVT (R218), and the obligation of tiles and the weight buffer. -/

namespace Sys2Proof.Machine

open Sys2Proof Sys2Proof.Claims

/-! ### The draws of a tile (R37) -/

/-- The draw that column j of row i takes. -/
def tileDraw (o : Ops) (f : Fmt) (seed : Word) (i j : Nat) : BitVec 16 :=
  if o.x.rm = .rs then (draws seed (32 * tcvtDrawn o f)).1.getD (i * tcvtDrawn o f + (j - tcvtFirst o f)) 0 else 0

theorem length_draws (s : Word) (n : Nat) : (draws s n).1.length = n := by
  induction n generalizing s with
  | zero => rfl
  | succ n ih => rw [draws, List.length_cons, ih]

theorem length_drawsFor (t : Task) (o : Ops) (n : Nat) : (t.drawsFor o n).1.length = n := by
  rw [Task.drawsFor]
  split
  · exact length_draws _ _
  · exact List.length_replicate

/-- The draws of row i begin behind those of the rows before it; a mode other than .rs draws zeros. -/
theorem rowDraw_drawsFor (t : Task) (o : Ops) (f : Fmt) (i : Nat) :
    rowDraw o f ((t.drawsFor o (32 * tcvtDrawn o f)).1.drop (i * tcvtDrawn o f)) = tileDraw o f t.seed i := by
  funext j
  rw [rowDraw, tileDraw, List.getD_eq_getElem?_getD, List.getElem?_drop, Task.drawsFor]
  split
  · rw [List.getD_eq_getElem?_getD]
  · rw [List.getElem?_replicate]
    split <;> rfl

/-! ### The rows of a tile -/

section

variable (o : Ops) (src old : Tile) (draw : Nat → Nat → BitVec 16)

/-- The converted tile, where column j of row i draws `draw i j`. -/
def tcvtTile : Tile :=
  Tile.make o.x.tag (BitVec.ofNat 16384 (packElems 512 ((List.range 32).map fun i => tcvtBits o src old (draw i) i)))
    (BitVec.ofNat 1024 (packElems 32 ((List.range 32).map fun i => tcvtScales o src old (draw i) i)))

/-- The flags of all rows. -/
def tcvtTileFlags : BitVec 6 := (List.range 32).foldl (fun a i => tcvtFlags o src old (draw i) i a) 0

end

/-- What TCVT holds before row m: the rows, the scales, the flags, and the draws left. -/
def rowsBefore (o : Ops) (src old : Tile) (ds : List (BitVec 16)) (m : Nat) : List Nat × List Nat × BitVec 6 × List (BitVec 16) :=
  ((List.range m).map fun i => tcvtBits o src old (rowDraw o src.tag (ds.drop (i * tcvtDrawn o src.tag))) i,
    (List.range m).map fun i => tcvtScales o src old (rowDraw o src.tag (ds.drop (i * tcvtDrawn o src.tag))) i,
    (List.range m).foldl (fun a i => tcvtFlags o src old (rowDraw o src.tag (ds.drop (i * tcvtDrawn o src.tag))) i a) 0,
    ds.drop (m * tcvtDrawn o src.tag))

/-- The model's rows, one behind the other. -/
theorem foldl_tcvtRow {o : Ops} {src old : Tile} {ds : List (BitVec 16)} (hfit : TcvtFits o src.tag)
    (hds : ds.length = 32 * tcvtDrawn o src.tag) :
    (List.range 32).foldl (fun (acc : List Nat × List Nat × BitVec 6 × List (BitVec 16)) i =>
      let q := tcvtRow o src old i acc.2.2.2
      (acc.1 ++ [q.1], acc.2.1 ++ [q.2.1], acc.2.2.1 ||| q.2.2.1, q.2.2.2)) ([], [], 0, ds) = rowsBefore o src old ds 32 := by
  refine foldl_range_eq (rowsBefore o src old ds) ?_ fun i hi => ?_
  · rw [rowsBefore, Nat.zero_mul]
    rfl
  · have hroom : tcvtDrawn o src.tag ≤ (ds.drop (i * tcvtDrawn o src.tag)).length := by
      rw [List.length_drop, hds, ← Nat.sub_mul]
      exact Nat.le_mul_of_pos_left _ (by omega)
    simp only [rowsBefore, tcvtRow_eq hfit hroom, List.drop_drop, List.range_succ, List.map_append, List.foldl_append, List.map_cons,
      List.map_nil, List.foldl_cons, List.foldl_nil, ← tcvtFlags_eq_or, Nat.succ_mul]

/-! ### Reads of the converted tile -/

section

variable {o : Ops} {src old : Tile} {draw : Nat → Nat → BitVec 16} {i : Nat}

/-- The elements of a row of the converted tile are those of the row's bits. -/
theorem elemAt_tcvtTile (hi : i < 32) {j : Nat} (hj : j < tileCols o.x.tag) :
    elemAt ((tcvtTile o src old draw).row i) (fmtBits o.x.tag) j = elemAt (tcvtBits o src old (draw i) i) (fmtBits o.x.tag) j := by
  rw [row_of_ofNat rfl hi, elemAt_packElems, getD_map_range _ hi, ← fmtBits_mul_tileCols o.x.tag, elemAt_mod _ hj]

/-- An element of a converted tile that is no block tile. -/
theorem elem_tcvtTile_of_elems (hb : o.x.tag.isBlock = false) (hi : i < 32) {j : Nat} (hj : j < tileCols o.x.tag) :
    elemAt ((tcvtTile o src old draw).row i) (fmtBits o.x.tag) j = (tcvtElem o src old (draw i) i j).1 % 2 ^ fmtBits o.x.tag := by
  rw [elemAt_tcvtTile hi hj, tcvtBits, hb, if_neg Bool.false_ne_true, elemAt_packElems, getD_map_range _ hj]

/-- An element of a converted block tile. -/
theorem elem_tcvtTile_of_blocks (hb : o.x.tag.isBlock = true) (hi : i < 32) {b j : Nat} (hb4 : b < 4) (hj : j < 32) :
    elemAt ((tcvtTile o src old draw).row i) 4 (32 * b + j) = (tcvtBlock o src old (draw i) i b).2.1.getD j 0 % 16 := by
  obtain ⟨hcols, hbits⟩ := tileCols_of_isBlock hb
  have h := elemAt_tcvtTile (o := o) (src := src) (old := old) (draw := draw) hi (j := 32 * b + j) (by omega)
  rw [hbits] at h
  rw [h, tcvtBits, hb, if_pos rfl, elemAt_packElems, getD_flatMap_range (fun _ _ => length_tcvtBlock_codes _ _ _ _ _ _) hb4 hj]
  rfl

/-- A scale byte of a converted block tile. -/
theorem scale_tcvtTile (hb : o.x.tag.isBlock = true) (hi : i < 32) {b : Nat} (hb4 : b < 4) :
    (tcvtTile o src old draw).scale i b = (tcvtBlock o src old (draw i) i b).1 := by
  have hscales : (tcvtTile o src old draw).scales =
      BitVec.ofNat 1024 (packElems 32 ((List.range 32).map fun i => tcvtScales o src old (draw i) i)) := by
    rw [tcvtTile, Tile.make, hb]
    rfl
  have hbytes := elemAt_mod (tcvtScales o src old (draw i) i) (w := 8) hb4
  apply BitVec.eq_of_toNat_eq
  rw [scale_of_ofNat hscales hi hb4, ← elemAt_elemAt _ (w := 8) i hb4, elemAt_packElems, getD_map_range _ hi, hbytes, tcvtScales,
    hb, if_pos rfl, elemAt_packElems, getD_map_range _ hb4, Nat.mod_eq_of_lt (BitVec.isLt _)]

theorem scale_make (tag : Fmt) (rows : BitVec 16384) (scales : BitVec 1024) (i b : Nat) :
    (Tile.make tag rows scales).scale i b = (if tag.isBlock then scales else 0).extractLsb' (32 * i + 8 * b) 8 := rfl

theorem elem_make (tag : Fmt) (rows : BitVec 16384) (scales : BitVec 1024) (i j : Nat) :
    (Tile.make tag rows scales).elem i j = elemAt (rows.extractLsb' (512 * i) 512).toNat (fmtBits tag) j := rfl

/-- The has-special bit of a row of a tile that is made (R46, R207). -/
theorem special_make (tag : Fmt) (rows : BitVec 16384) (scales : BitVec 1024) (hi : i < 32) :
    (Tile.make tag rows scales).special.getLsbD i = ((Fmt.isFp tag || tag.isBlock) && (List.range (tileCols tag)).any fun j =>
      isSpecial tag ((Tile.make tag rows scales).scale i (j / 32)) ((Tile.make tag rows scales).elem i j)) := by
  simp only [scale_make, elem_make]
  exact getLsbD_packElems_one (fun i => (Fmt.isFp tag || tag.isBlock) && (List.range (tileCols tag)).any fun j =>
    isSpecial tag ((if tag.isBlock then scales else 0).extractLsb' (32 * i + 8 * (j / 32)) 8)
      (elemAt (rows.extractLsb' (512 * i) 512).toNat (fmtBits tag) j)) hi

end

/-! ### The instruction -/

/-- TCVT with every check passed. -/
theorem execTcvt_eq {o : Ops} {s : State} {pd ps : Nat} (hd : s.task.window o.d.toNat = some pd) (ha : s.task.window o.a.toNat = some ps)
    (hps : s.tileBusy s.task.cluster ps false = false) (hpd : s.tileBusy s.task.cluster pd true = false) {src old : Tile}
    (hsrc : s.tileAt s.task.cluster ps = src) (hold : s.tileAt s.task.cluster pd = old)
    (hraw : src.tag ≠ .raw) (he2m1 : src.tag ≠ .e2m1)
    (hpart : tcvtPart o < if tileCols o.x.tag ≤ tileCols src.tag then tileCols src.tag / tileCols o.x.tag
      else tileCols o.x.tag / tileCols src.tag)
    (htag : tileCols src.tag < tileCols o.x.tag → tcvtPart o ≠ 0 → old.tag = o.x.tag) :
    exec (.tcvt o) s = .next ((s.setTile s.task.cluster pd (tcvtTile o src old (tileDraw o src.tag s.task.seed))).doneTask o
      { s.task with seed := (s.task.drawsFor o (32 * tcvtDrawn o src.tag)).2 } (tcvtTileFlags o src old (tileDraw o src.tag s.task.seed))) := by
  have hfit : TcvtFits o src.tag := tcvtFits_of_lt fun hwide => by rwa [if_neg hwide] at hpart
  have hformat : (src.tag != .raw && src.tag != .e2m1) = true := by simp [hraw, he2m1]
  have hold' : (!(decide (tileCols src.tag < tileCols o.x.tag) && tcvtPart o != 0 && old.tag != o.x.tag)) = true := by
    simp only [Bool.not_eq_true', Bool.and_eq_false_iff, decide_eq_false_iff_not, bne_eq_false_iff_eq]
    tauto
  change execTcvt o s = _
  rw [tcvtPart] at hpart hold'
  simp only [execTcvt, State.ptile_mapped hd, State.ptile_mapped ha, State.tileWait_free hps, State.tileWait_free hpd, hsrc, hold,
    need_ok.mpr hformat, need_ok.mpr (decide_eq_true hpart), need_ok.mpr hold', bind, Except.bind, tcvtDraws_eq, State.run_eq, State.finish_ok]
  rw [foldl_tcvtRow hfit (length_drawsFor _ _ _)]
  simp only [rowsBefore, rowDraw_drawsFor]
  rfl

/-- SEED after the draws of TCVT (R37). -/
theorem drawsFor_seed (t : Task) (o : Ops) (n : Nat) : (t.drawsFor o n).2 = if o.x.rm = .rs then (draws t.seed n).2 else t.seed := by
  rw [Task.drawsFor]
  split <;> rfl

/-- TCVT ends with the converted tile in d, the draws taken and the flags merged. -/
theorem tileConverts : TileConverts := by
  intro o s pd ps hs ha hb hc hd hsrc c src old f es ed part narrow hps hpd hraw he2m1 hpart
  have hwide (hn : ¬ tileCols o.x.tag ≤ tileCols src.tag) :
      tcvtPart o < tileCols o.x.tag / tileCols src.tag ∧ (tcvtPart o ≠ 0 → old.tag = o.x.tag) := (if_neg (c := narrow) hn).mp hpart
  have hp : tcvtPart o < if tileCols o.x.tag ≤ tileCols src.tag then tileCols src.tag / tileCols o.x.tag
      else tileCols o.x.tag / tileCols src.tag := by
    by_cases hn : tileCols o.x.tag ≤ tileCols src.tag
    · rw [if_pos hn]
      exact (if_pos (c := narrow) hn).mp hpart
    · rw [if_neg hn]
      exact (hwide hn).1
  have htag (hn : tileCols src.tag < tileCols o.x.tag) : tcvtPart o ≠ 0 → old.tag = o.x.tag := (hwide (Nat.not_le.mpr hn)).2
  have hexec := execTcvt_eq hd hsrc hps hpd rfl rfl hraw he2m1 hp htag
  rw [State.doneTask, take_of_no_port _ ha hb hc] at hexec
  have htile := State.tileAt_setTile hs c pd (tcvtTile o src old (tileDraw o src.tag s.task.seed))
  refine ⟨_, hexec, ?_⟩
  intro y
  have hy : y = tcvtTile o src old (tileDraw o src.tag s.task.seed) := (htile c pd).trans (if_pos rfl)
  rw [hy]
  refine ⟨rfl, fun i hi => ⟨fun hblock j hj => ?_, fun hblock b hb4 => ⟨?_, fun j hj => ?_⟩, ?_⟩, fun c' p' hne => ?_, ?_, ?_, ?_, ?_, ?_⟩
  · exact elem_tcvtTile_of_elems hblock hi hj
  · exact scale_tcvtTile hblock hi hb4
  · exact elem_tcvtTile_of_blocks hblock hi hb4 hj
  · exact special_make _ _ _ hi
  · exact (htile c' p').trans (if_neg hne)
  · rfl
  · exact drawsFor_seed s.task o _
  · rfl
  · rfl
  · exact ⟨fun _ => rfl, fun _ => rfl⟩

/-- Settles O31: fills and moves by the tile they write; TCVT by what each row holds after its columns or blocks, whose draws lie one
behind the other; the weight load by the units that it names once each. -/
theorem tilesAndWeights : Obligations.TilesAndWeights := ⟨tileFills, tileConverts, weightLoad⟩

end Sys2Proof.Machine
end

section
/-! SUPPORT. What a write of DRAM by the hardware can do, and with it the write of a context area and of a group record: bytes, and
monitors that fire (R255, R269). -/

namespace Sys2Proof.Machine

open Sys2Proof Sys2Proof.Claims

/-- The task is as before but for what it waits for. -/
def OnlyWait (t u : Task) : Prop := ∃ w, u = { t with wait := w }

theorem OnlyWait.refl (t : Task) : OnlyWait t t := ⟨t.wait, rfl⟩
theorem OnlyWait.trans {t u v : Task} (h : OnlyWait t u) (k : OnlyWait u v) : OnlyWait t v := by
  obtain ⟨w, rfl⟩ := h
  obtain ⟨w', rfl⟩ := k
  exact ⟨w', rfl⟩

theorem OnlyWait.tid {t u : Task} (h : OnlyWait t u) : u.tid = t.tid := by
  obtain ⟨w, rfl⟩ := h
  rfl
theorem OnlyWait.pc {t u : Task} (h : OnlyWait t u) : u.pc = t.pc := by
  obtain ⟨w, rfl⟩ := h
  rfl

/-- Only bytes of DRAM with their check bits, and what the tasks wait for, have changed. -/
structure Poked (s u : State) : Prop where
  rest : u = { s with mem := u.mem, poison := u.poison, task := u.task, others := u.others }
  task : OnlyWait s.task u.task
  others : ∀ t ∈ s.others, ∃ t' ∈ u.others, OnlyWait t t'

theorem Poked.refl (s : State) : Poked s s := ⟨rfl, .refl _, fun t ht => ⟨t, ht, .refl t⟩⟩
theorem Poked.trans {s t u : State} (h : Poked s t) (k : Poked t u) : Poked s u := by
  refine ⟨by rw [k.rest, h.rest], h.task.trans k.task, fun x hx => ?_⟩
  obtain ⟨y, hy, hxy⟩ := h.others x hx
  obtain ⟨z, hz, hyz⟩ := k.others y hy
  exact ⟨z, hz, hxy.trans hyz⟩
/-- Writes that follow one another. -/
theorem Poked.foldl {α : Type} {f : State → α → State} (h : ∀ s x, Poked s (f s x)) (l : List α) (s : State) : Poked s (l.foldl f s) := by
  induction l generalizing s with
  | nil => exact .refl s
  | cons x l ih => exact (h s x).trans (ih _)

theorem State.poke_poked (s : State) (pa n v : Nat) : Poked s (s.poke pa n v) :=
  ⟨rfl, s.task.fire_eq _ _, fun t ht => ⟨_, List.mem_map_of_mem ht, t.fire_eq _ _⟩⟩
theorem State.writeLines_poked (s : State) (pas : List Nat) (x : Nat) : Poked s (s.writeLines pas x) :=
  .foldl (fun s _ => s.poke_poked _ _ _) _ s
theorem State.writeArea_poked (s : State) (t : Task) (cs : CState) : Poked s (s.writeArea t cs) := by
  unfold State.writeArea
  split
  · exact .refl s
  · exact s.writeLines_poked _ _
theorem State.writeMember_poked (s : State) (pa j : Nat) (m : Tid × Word) : Poked s (s.writeMember pa j m) :=
  (s.poke_poked _ _ _).trans (State.poke_poked _ _ _ _)
theorem State.writeMembers_poked (s : State) (pa : Nat) (ms : List (Nat × Tid × Word)) :
    Poked s (ms.foldl (fun s m => s.writeMember pa m.1 m.2) s) := by
  refine Poked.foldl (fun u m => ?_) ms s
  exact u.writeMember_poked pa m.1 m.2

/-! ### Leaves of groups (R249, R297) -/

/-- A change of a task that keeps the numbers of tasks. -/
theorem State.modTask_task_tid (s : State) (tid : Tid) {f : Task → Task} (hf : ∀ t, (f t).tid = t.tid) :
    (s.modTask tid f).task.tid = s.task.tid := by
  change (if s.task.tid == tid then f s.task else s.task).tid = s.task.tid
  split
  · exact hf _
  · rfl

/-- A group entry writes its record; the executing task keeps its number. -/
theorem State.putGroup_task_tid (s : State) (g : Group) : (s.putGroup g).task.tid = s.task.tid := by
  unfold State.putGroup
  simp only
  rw [(State.poke_poked _ _ _ _).task.tid, (State.writeMembers_poked _ g.pa _).task.tid]

theorem State.leaveGroup_task_tid (s : State) (g : Group) (j : Nat) (tid : Tid) : (s.leaveGroup g j tid).task.tid = s.task.tid := by
  unfold State.leaveGroup
  simp only
  rw [State.modTask_task_tid]
  · exact s.putGroup_task_tid _
  · exact fun _ => rfl

/-- The leaves of a task that ends leave the executing task its number. -/
theorem State.leaveAll_task_tid (s : State) (tid : Tid) : (s.leaveAll tid).task.tid = s.task.tid := by
  unfold State.leaveAll
  split
  · rfl
  · refine List.foldlRecOn (motive := fun u : State => u.task.tid = s.task.tid) _ _ rfl fun u hu pa _ => ?_
    split
    · exact hu
    · split
      · exact hu
      · exact (u.leaveGroup_task_tid _ _ tid).trans hu

end Sys2Proof.Machine
end

section
/-! SUPPORT. Where a new task is placed (R236, R248), and what a spawn record gives it. -/

namespace Sys2Proof.Machine

open Sys2Proof Sys2Proof.Claims

/-! ### The island of the core is awake before (R385) -/

/-- The wake of an island touches cores, the ages of jobs, and the island. -/
theorem State.wakeIsland_eq (s : State) (i : Nat) :
    ∃ cs cl is, s.wakeIsland i = { s with cores := cs, clusters := cl, islands := is } := by
  unfold State.wakeIsland
  split
  · exact ⟨s.cores, s.clusters, s.islands, rfl⟩
  · exact ⟨_, _, _, rfl⟩

/-- The wake of an island leaves every ready queue. -/
theorem State.wakeIsland_ready {s : State} (h : smapWf {} s.cores = true) (i c : Nat) :
    ((s.wakeIsland i).core c).ready = (s.core c).ready := by
  unfold State.wakeIsland
  split
  · rfl
  · have hcore : (s.islandCores i Core.wake).core c = if islandOf c = i then (s.core c).wake else s.core c :=
      smapGet_map (smapWf_iff.mp h).1 (fun k c => if islandOf k = i then c.wake else c) (fun k => by split <;> rfl) c
    change ((s.islandCores i Core.wake).core c).ready = _
    rw [hcore]
    split <;> rfl

theorem State.freeSlot_wakeIsland {s : State} (h : smapWf {} s.cores = true) (i core : Nat) :
    (s.wakeIsland i).freeSlot core = s.freeSlot core := by
  obtain ⟨cs, cl, is, hw⟩ := s.wakeIsland_eq i
  have hslot : (s.wakeIsland i).emptySlot core = s.emptySlot core := by rw [hw]; rfl
  rw [State.freeSlot, State.freeSlot, State.wakeIsland_ready h, hslot]

/-! ### Placement -/

/-- `u` is the new task `t` after its placement on a core: it runs in a slot, or stands in the ready queue. -/
def Placed (t : Task) (core : Nat) (u : Task) : Prop :=
  u.core = core ∧ (u.cstate = .running ∨ u.cstate = .ready) ∧
    u = { t with streams := u.streams, cstate := u.cstate, core := u.core, slot := u.slot, wait := u.wait, saved := u.saved, tile := u.tile,
                 target := u.target }

theorem Placed.onlyWait {t u v : Task} {core : Nat} (h : Placed t core u) (k : OnlyWait u v) : Placed t core v := by
  obtain ⟨hcore, hstate, heq⟩ := h
  obtain ⟨w, rfl⟩ := k
  refine ⟨hcore, hstate, ?_⟩
  rw [heq]

/-- Placement leaves the scalar registers. -/
theorem Placed.rd {t u : Task} {core : Nat} (h : Placed t core u) (n : BitVec 5) : u.rd n = t.rd n := by
  obtain ⟨-, -, heq⟩ := h
  rw [heq]
  rfl

theorem Task.enter_placed {t : Task} (h : t.parked = false) (core n : Nat) : Placed t core (t.enter core n) :=
  ⟨rfl, .inl (by rw [Task.enter, h]; rfl), rfl⟩

/-- On a core with a free slot the new task enters it: no other context changes, and no memory (R236). -/
theorem State.enrol_slot {s : State} (hs : smapWf {} s.cores = true) (t : Task) {core n : Nat} (h : s.freeSlot core = some n) :
    (s.enrol t core).others = s.others ++ [t.enter core n] ∧ (s.enrol t core).task = s.task ∧ SameMemory s (s.enrol t core) := by
  obtain ⟨cs, cl, is, hw⟩ := s.wakeIsland_eq (islandOf core)
  have he : s.enrol t core = (s.wakeIsland (islandOf core)).addTask (t.enter core n) := by
    unfold State.enrol
    simp only [State.freeSlot_wakeIsland hs, h]
  rw [he, hw]
  exact ⟨rfl, rfl, fun _ => rfl, fun _ => rfl⟩

/-- On a core without a free slot the new task joins the ready queue, with its context in its area (R236). -/
theorem State.enrol_queue {s : State} (hs : smapWf {} s.cores = true) (t : Task) {core : Nat} (h : s.freeSlot core = none) :
    (∃ u ∈ (s.enrol t core).others, Placed t core u) ∧ OnlyWait s.task (s.enrol t core).task := by
  obtain ⟨cs, cl, is, hw⟩ := s.wakeIsland_eq (islandOf core)
  have hq : (s.wakeIsland (islandOf core)).freeSlot core = none := by rw [State.freeSlot_wakeIsland hs, h]
  let c := (s.wakeIsland (islandOf core)).core core
  let u : Task := { t with cstate := .ready, core := core, target := core, saved := some [] }
  let r : State := ((s.wakeIsland (islandOf core)).setCore core { c with ready := c.ready ++ [u.tid] }).addTask u
  have he : s.enrol t core = r.writeArea u .ready := by
    unfold State.enrol
    simp only [hq]
    rfl
  have hp := r.writeArea_poked u .ready
  have htask : (s.wakeIsland (islandOf core)).task = s.task := by rw [hw]
  rw [he]
  obtain ⟨v, hv, huv⟩ := hp.others u (List.mem_append_right _ (List.mem_singleton_self _))
  exact ⟨⟨v, hv, Placed.onlyWait ⟨rfl, .inr rfl, rfl⟩ huv⟩, htask ▸ hp.task⟩

/-- A new task joins the contexts of the package on its core, and the executing task keeps all but what it waits for; where the core has a
free slot, nothing else of the contexts and no memory changes. -/
theorem State.enrol_placed {s : State} (hs : smapWf {} s.cores = true) {t : Task} (h : t.parked = false) (core : Nat) :
    ∃ u ∈ (s.enrol t core).others, Placed t core u ∧ OnlyWait s.task (s.enrol t core).task ∧
      ((s.freeSlot core).isSome → (s.enrol t core).others = s.others ++ [u] ∧ SameMemory s (s.enrol t core)) := by
  cases hf : s.freeSlot core with
  | some n =>
    obtain ⟨hothers, htask, hmem⟩ := State.enrol_slot hs t hf
    refine ⟨t.enter core n, ?_, Task.enter_placed h core n, ?_, fun _ => ⟨hothers, hmem⟩⟩
    · rw [hothers]
      exact List.mem_append_right _ (List.mem_singleton_self _)
    · rw [htask]
      exact .refl _
  | none =>
    obtain ⟨⟨u, hu, hplaced⟩, htask⟩ := State.enrol_queue hs t hf
    exact ⟨u, hu, hplaced, htask, fun hc => absurd hc (by simp)⟩

/-! ### The task of a spawn record (R233, R248) -/

/-- Writes of scalar registers touch the scalar file. -/
theorem foldl_wr_eq (regs : List (BitVec 5 × Word)) (t : Task) : ∃ g, regs.foldl (fun t r => t.wr r.1 r.2) t = { t with g := g } := by
  induction regs generalizing t with
  | nil => exact ⟨t.g, rfl⟩
  | cons r regs ih =>
    obtain ⟨g, hg⟩ := ih (t.wr r.1 r.2)
    refine ⟨g, hg.trans ?_⟩
    unfold Task.wr
    split <;> rfl

/-- A new task but for its scalar registers. -/
theorem freshTask_eq (tid : Tid) (pc stat tvec ctxa aspace twin kcur : Word) (regs : List (BitVec 5 × Word)) :
    ∃ g, freshTask tid pc stat tvec ctxa aspace twin kcur regs =
      { tid := tid, pc := pc, stat := stat, tvec := tvec &&& ~~~(2 : Word), ctxa := ctxa, aspace := aspace &&& aspaceMask,
        twin := twin &&& twinMask, kcur := kcur, seed := 0x9E3779B97F4A7C15 ^^^ tid.setWidth 64, g := g } :=
  foldl_wr_eq regs _

/-- The scalar registers of a new task: those of the record, and zeros. -/
theorem freshTask_rd (tid : Tid) (pc stat tvec ctxa aspace twin kcur : Word) (r : SpawnRecord) (n : BitVec 5) :
    (freshTask tid pc stat tvec ctxa aspace twin kcur r.regs).rd n =
      if n = 30 then r.sp else if n = 3 then r.args.getD 2 0 else if n = 2 then r.args.getD 1 0 else if n = 1 then r.args.getD 0 0 else 0 := by
  have hk (k : BitVec 5) (hk : k ≠ 0) : (n = k ∧ n ≠ 0) = (n = k) := by
    refine propext ⟨And.left, fun h => ⟨h, h ▸ hk⟩⟩
  have h0 (t : Task) (h : t.g = Vector.replicate 32 0) : t.rd n = 0 := by
    simp [Task.rd, h]
  simp only [freshTask, SpawnRecord.regs, List.foldl_cons, List.foldl_nil, Task.rd_wr, hk 30 (by decide), hk 3 (by decide),
    hk 2 (by decide), hk 1 (by decide)]
  rw [h0 _ rfl]

end Sys2Proof.Machine
end

section
/-! CERTIFICATE. SPAWN, TID, EXIT and EXIT.dump (R248, R249, R251). -/

namespace Sys2Proof.Machine

open Sys2Proof Sys2Proof.Claims

/-! ### SPAWN and TID -/

/-- An instruction that writes `v` to a register and completes, as the end it comes to. -/
theorem State.complete_eq_endAt (s : State) {o : Ops} (v : Word) (hd : o.x.pd = false) :
    s.complete o v = .ok (endAt s o (s.task.wr o.d v).g (s.task.fsr ||| (0 : BitVec 6).setWidth 64)
      (s.task.pc + BitVec.ofNat 64 o.len.bytes)) := by
  rw [State.complete_register _ _ _ hd, advance_eq_goto, take_pc, State.wr_task, Task.wr_pc, ← take_wr_eq_endAt, flag_zero]

/-- An instruction that raises no flag, writes `v` to d and completes. -/
theorem delivers_of_plain_complete {i : Instr} {s : State} {o : Ops} {v : Word} (hs : Canonical s)
    (he : exec i s = s.run i (s.complete o v)) : Delivers i o s s v 0 false := by
  have h := delivers_of_complete (f := 0) hs (by rw [flag_zero]; exact he)
  rwa [flag_zero] at h

/-- The task that SPAWN makes of a record for an issuer (R248). -/
def spawnedTask (p : Paddock) (t : Task) (r : SpawnRecord) : Task :=
  freshTask p.tid r.pc (if r.sup then 1 else 0) t.tvec r.ctxa t.aspace r.twin 0 r.regs

theorem spawnedTask_rd (p : Paddock) (t : Task) (r : SpawnRecord) (n : BitVec 5) : (spawnedTask p t r).rd n =
    if n = 30 then r.sp else if n = 3 then r.args.getD 2 0 else if n = 2 then r.args.getD 1 0 else if n = 1 then r.args.getD 0 0 else 0 :=
  freshTask_rd _ _ _ _ _ _ _ _ r n

/-- SPAWN of a legal record that the issuer may give places its task and delivers the number. -/
theorem execSpawn_eq {o : Ops} {s : State} {a : Word} {v : Nat} {p : Paddock} (ha : s.srcA o = .ok a) (hv : s.load {} a 64 64 = .ok v)
    (hp : s.paddock s.task.tenant = some p)
    (hallow : (spawnRecord (BitVec.ofNat 512 v)).allowed s.task.sup = true)
    (hlegal : s.recordLegal (spawnRecord (BitVec.ofNat 512 v)) s.task.tenant = true)
    (hroom : s.hasRoom ((spawnRecord (BitVec.ofNat 512 v)).target s.task.core) = true)
    (hroute : s.linked ((spawnRecord (BitVec.ofNat 512 v)).target s.task.core / 2304) = true) :
    exec (.spawn o) s = s.run (.spawn o) (((s.useTid s.task.tenant).enrol (spawnedTask p s.task (spawnRecord (BitVec.ofNat 512 v)))
      ((spawnRecord (BitVec.ofNat 512 v)).target s.task.core)).complete o (p.tid.setWidth 64)) := by
  change execSpawn o s = _
  rw [execSpawn, ha]
  simp only [bind, Except.bind, hv, need_ok.mpr hallow, need_ok.mpr hlegal, need_ok.mpr (Bool.and_eq_true_iff.mpr ⟨hroute, hroom⟩), hp]
  rfl

/-- SPAWN adds one task made of its record, and delivers its number; TID and TID.loc deliver the number and the place. -/
theorem spawnCreatesTask : SpawnCreatesTask := by
  intro o s hs hd
  refine ⟨?_, fun _ _ _ => ⟨?_, ?_⟩⟩
  · intro a v p ha hv hp r core hallow hlegal hroom hroute
    have hallow' : r.allowed s.task.sup = true := by
      simpa [SpawnRecord.allowed] using hallow
    obtain ⟨g, hg⟩ : ∃ g, spawnedTask p s.task r = _ := freshTask_eq _ _ _ _ _ _ _ _ _
    obtain ⟨u, hu, hplaced, htask, hslot⟩ :=
      State.enrol_placed (s := s.useTid s.task.tenant) hs.cores (congrArg Task.parked hg) core
    have hrd (n : BitVec 5) := (hplaced.rd n).trans (spawnedTask_rd p s.task r n)
    obtain ⟨hcore, hstate, hplace⟩ := hplaced
    rw [hg] at hplace
    have hexec := execSpawn_eq ha hv hp hallow' hlegal hroom hroute
    rw [State.complete_eq_endAt _ _ hd, State.run_eq, State.finish_ok] at hexec
    have htid : u.tid = p.tid := congrArg Task.tid hplace
    refine ⟨_, u, hexec, ?_, htid, hcore, congrArg Task.pc hplace, hrd 1, hrd 2, hrd 3, hrd 30, fun n h1 h2 h3 h30 => ?_,
      congrArg Task.aspace hplace, congrArg Task.tvec hplace, congrArg Task.ctxa hplace, congrArg Task.twin hplace,
      congrArg Task.stat hplace, ?_, hstate, ?_, ?_, fun hf => ⟨?_, ?_⟩⟩
    · rw [endAt_onlyTask.1]
      exact hu
    · rw [hrd, if_neg h30, if_neg h3, if_neg h2, if_neg h1]
    · rw [htid]
      exact congrArg Task.seed hplace
    · rw [endAt_wr_rd_self, htid]
    · rw [Advanced, endAt_task]
      exact congrArg (· + BitVec.ofNat 64 o.len.bytes) htask.pc
    · rw [endAt_onlyTask.1]
      exact (hslot hf).1
    · obtain ⟨-, hmem, hscratch⟩ := endAt_onlyTask
      exact ⟨fun k => (hmem k).trans ((hslot hf).2.1 k), fun k => (hscratch k).trans ((hslot hf).2.2 k)⟩
  · exact delivers_of_plain_complete hs rfl
  · exact delivers_of_plain_complete hs (by rw [Nat.mul_comm]; rfl)

/-! ### EXIT -/

theorem State.findTask_self (s : State) : s.findTask s.task.tid = some s.task := by
  simp [State.findTask, State.tasks]

/-- A task that is in no group leaves none. -/
theorem State.leaveAll_of_no_group {s : State} (h : s.task.groups = []) : s.leaveAll s.task.tid = s := by
  simp [State.leaveAll, State.findTask_self, h]

/-- The end of an activation touches the log of its core. -/
theorem State.endRun_eq (s : State) (t : Task) : s.endRun t = { s with cores := (s.endRun t).cores } := by
  unfold State.endRun
  split <;> rfl

/-- What the executing task gives up as it ends: after the leaves, its bindings, its halters and its context (R249). -/
theorem State.release_self (s : State) : ∃ cs cl, s.release s.task.tid =
    ({ s.leaveAll s.task.tid with
        cores := cs, clusters := cl
        mailboxes := (s.leaveAll s.task.tid).mailboxes.filter (·.tid != s.task.tid)
        halters := (s.leaveAll s.task.tid).halters.filter (·.tid != s.task.tid) } : State).dropTask s.task.tid := by
  unfold State.release
  simp only [State.findTask_self]
  exact ⟨_, _, congrArg (State.dropTask · s.task.tid) (State.endRun_eq _ s.task)⟩

/-- After the release of a task no context, no halter and no mailbox binding has its number. -/
theorem State.release_frees (s : State) :
    (s.release s.task.tid).task = {} ∧ (∀ u ∈ (s.release s.task.tid).others, u.tid ≠ s.task.tid) ∧
      (∀ h ∈ (s.release s.task.tid).halters, h.tid ≠ s.task.tid) ∧ ∀ m ∈ (s.release s.task.tid).mailboxes, m.tid ≠ s.task.tid := by
  obtain ⟨cs, cl, h⟩ := s.release_self
  rw [h]
  refine ⟨if_pos (s.leaveAll_task_tid s.task.tid), fun u hu => ?_, fun x hx => ?_, fun m hm => ?_⟩
  · simpa using (List.mem_filter.mp hu).2
  · simpa using (List.mem_filter.mp hx).2
  · simpa using (List.mem_filter.mp hm).2

theorem State.release_memory {s : State} (h : s.task.groups = []) : SameMemory s (s.release s.task.tid) := by
  obtain ⟨cs, cl, hr⟩ := s.release_self
  rw [hr, State.leaveAll_of_no_group h]
  exact ⟨fun _ => rfl, fun _ => rfl⟩

theorem execExit_eq {o : Ops} {s : State} (hd : s.delivering s.task.tid = false) (hl : s.mayLeave s.task = true) :
    exec (.exit o) s = .next (s.release s.task.tid) := by
  change execExit o s = _
  rw [execExit, hd, hl]
  rfl

/-! ### EXIT.dump -/

/-- A task lets go of halters and of the tile it loads. -/
theorem State.letGo_eq (s : State) (t : Task) : ∃ hs cl, s.letGo t = { s with halters := hs, clusters := cl } := by
  unfold State.letGo
  simp only
  split
  · exact ⟨_, s.clusters, rfl⟩
  · split
    · exact ⟨_, s.clusters, rfl⟩
    · exact ⟨_, _, rfl⟩

/-- A dump that no fault makes moves the executing task to dumped: its registers stay, and memory (R246). -/
theorem State.dumpTask_self {s : State} (h : s.task.cstate ≠ .dumped) (d : Dump) :
    ∃ sv tg, (s.dumpTask s.task.tid d false).task =
        { s.task with cstate := .dumped, wait := .none, tile := none, dump := some d, saved := sv, target := tg } ∧
      SameMemory s (s.dumpTask s.task.tid d false) := by
  obtain ⟨hs, cl, hgo⟩ := s.letGo_eq s.task
  obtain ⟨cl', hold⟩ : ∃ cl', (if s.task.saved.isSome then s.letGo s.task else (s.letGo s.task).holdJobs s.task) =
      { s with halters := hs, clusters := cl' } := by
    rw [hgo]
    split
    · exact ⟨cl, rfl⟩
    · exact ⟨_, rfl⟩
  unfold State.dumpTask
  simp only [State.findTask_self, if_neg h, hold, Bool.false_and, Bool.false_eq_true, if_false]
  split <;> exact ⟨_, _, if_pos (beq_self_eq_true _), fun _ => rfl, fun _ => rfl⟩

theorem execExitDump_sup {o : Ops} {s : State} (h : s.task.sup = true) :
    exec (.exitDump o) s = .next (s.dumpTask s.task.tid { ecause := 16, epc := s.task.pc } false) := by
  change execExitDump o s = _
  rw [execExitDump, State.needSup_ok.mpr h]
  rfl

/-- EXIT.dump of a task that is no supervisor is a privilege trap (R247). -/
theorem execExitDump_user {o : Ops} {s : State} (h : s.task.sup = false) :
    exec (.exitDump o) s = .next (s.trap { kind := 9, info0 := (Instr.word (.exitDump o)).setWidth 64 }) := by
  change execExitDump o s = _
  rw [execExitDump, State.needSup_error.mpr ⟨h, rfl⟩]
  rfl

/-- After EXIT nothing that the task held has its number; EXIT.dump keeps its registers in the dumped context, whose PC is that of the EXIT.dump
(assumption 39). -/
theorem exitReleases : ExitReleases := by
  intro o s hrun _
  refine ⟨fun hd hl => ?_, fun hsup => ?_, execExitDump_user⟩
  · obtain ⟨htask, hothers, hhalters, hmail⟩ := s.release_frees
    exact ⟨_, execExit_eq hd hl, htask, hothers, hhalters, hmail, State.release_memory⟩
  · obtain ⟨sv, tg, htask, hmem⟩ := State.dumpTask_self (s := s) (by rw [hrun]; decide) { ecause := 16, epc := s.task.pc }
    exact ⟨_, _, execExitDump_sup hsup, congrArg Task.cstate htask, congrArg Task.dump htask, rfl, rfl,
      by rw [htask], by rw [htask], hmem⟩

/-- Settles O35: SPAWN by the placement of the task that its record makes, which free slot being the model's choice (assumption 19); EXIT by
what a release leaves out. -/
theorem taskCreationAndExit : Obligations.TaskCreationAndExit := ⟨spawnCreatesTask, exitReleases⟩

end Sys2Proof.Machine
end
